-- ==== Sys2Proof/Word.lean ====
section
/-! DEFINITION. The word types of 00_scope.md rule R7 and the small named sets the spec gives
(buttons, controller commands, link events). Every value is unsigned; bit 0 is the least significant. -/

namespace Sys2Proof

/-- One bit: DC, TXBUSY, RST, OPM, a pin level, a flag (10_state.md rule R20). -/
abbrev Bit := BitVec 1
/-- One transmitted unit, a controller command byte, a parameter byte. -/
abbrev Byte := BitVec 8
/-- A coordinate, a colour, a stopwatch reading. -/
abbrev Half := BitVec 16
/-- RES and COUNT. -/
abbrev Word := BitVec 32
/-- The operation descriptor `D[63:0]` of 30_encoding.md rule R90. -/
abbrev Descriptor := BitVec 64

/-- The index i of PIN[i], DB[i], FLAG[i]: CONFIRM = 0, START = 1 (30_encoding.md rule R98). -/
inductive Button where
  | confirm
  | start
  deriving DecidableEq, Repr, Inhabited

/-- One cell per button (10_state.md rule R20). -/
structure PerButton (α : Type) where
  confirm : α
  start : α
  deriving DecidableEq, Repr

/-- The eleven controller commands the block sends (30_encoding.md rule R101). -/
inductive LinkCmd where
  | slpout | gamset | pwctr | stba | colmod | madctl | noron | dispon | caset | raset | ramwr
  deriving DecidableEq, Repr, Inhabited

/-- An event of the observation trace LINK (00_scope.md rule R9). -/
inductive LinkEvent where
  | frame (dc : Bit) (b : Byte)
  | rstAssert
  | rstRelease
  | dwell (ms : Nat)
  deriving DecidableEq, Repr

/-- The agents that execute steps (00_scope.md rule R10); ENV's two steps per pin are those of
43_input_sampler.md rule R201. -/
inductive Agent where
  | host
  | seq
  | tx
  | clk
  | tick
  | db (i : Button)
  | pinFall (i : Button)
  | pinRise (i : Button)
  | ctrl
  deriving DecidableEq, Repr, Inhabited

/-- The host's five visual prompts (45_host_reference.md rule R231). -/
inductive Stimulus where
  | up | down | left | right | cross
  deriving DecidableEq, Repr, Inhabited

end Sys2Proof
end

