-- ==== Sys2Proof/Syntax.lean ====
section
/-! DEFINITION. The instructions: one constructor per row of spec/opcode_table.json. The first eleven
are the host operations of 30_encoding.md rule R94, the other twelve the link rows of rules R100 and
R101, as the display controller receives them (46_controller_double.md). -/

namespace Sys2Proof

inductive Instr where
  /-- SEND byte, dc (40_serial_channel.md rule R130). -/
  | send (byte : Byte) (isData : Bit)
  /-- INIT (41_display_driver.md rule R157). -/
  | init
  /-- CLEAR color (rule R158). -/
  | clear (color : Half)
  /-- SETPIXEL x, y, color (rule R159). -/
  | setPixel (x : Half) (y : Half) (color : Half)
  /-- TMRRD (42_timer.md rule R182). -/
  | tmrrd
  /-- ELAPSED start, end (rule R183). -/
  | elapsed (start : Half) (stop : Half)
  /-- CNTRST (rule R186). -/
  | cntrst
  /-- CNTRD (rule R187). -/
  | cntrd
  /-- FLAGRD flag (43_input_sampler.md rule R206). -/
  | flagrd (i : Button)
  /-- FLAGCLR flag (rule R207). -/
  | flagclr (i : Button)
  /-- FLAGRC flag (rule R208). -/
  | flagrc (i : Button)
  /-- LINK.SLPOUT, the command frame "exit sleep mode" (30_encoding.md rule R101). -/
  | linkSlpout
  /-- LINK.GAMSET, "select a 3-gamma-curve gamma table". -/
  | linkGamset
  /-- LINK.PWCTR, "program power-control timing parameters". -/
  | linkPwctr
  /-- LINK.STBA, "program a standby/idle timing parameter". -/
  | linkStba
  /-- LINK.COLMOD, "select 16-bit-per-pixel color mode". -/
  | linkColmod
  /-- LINK.MADCTL, "set the scan-direction/color-order control register". -/
  | linkMadctl
  /-- LINK.NORON, "exit partial mode". -/
  | linkNoron
  /-- LINK.DISPON, "enable display output". -/
  | linkDispon
  /-- LINK.CASET, addressing window, x-range. -/
  | linkCaset
  /-- LINK.RASET, addressing window, y-range. -/
  | linkRaset
  /-- LINK.RAMWR, "the memory-write command". -/
  | linkRamwr
  /-- LINK.DATA, a data frame: a parameter or colour byte, interpreted by the last command frame. -/
  | linkData (b : Byte)
  deriving DecidableEq, Repr

end Sys2Proof
end

