-- ==== Sys2Proof/Config.lean ====
section
/-! DEFINITION. The configuration record Cfg of 00_scope.md rule R5, its fixed parameters, and the free
values: opaque constants, so that no proof can see what they are. -/

namespace Sys2Proof

/-- The open fields of Cfg that a rule uses (00_scope.md rule R5, 30_encoding.md rule R101): the
implementation's values, carried in State and written by no step (log 3). -/
structure Cfg where
  width : Nat
  height : Nat
  cmdSlpout : Byte
  cmdGamset : Byte
  cmdPwctr : Byte
  cmdStba : Byte
  cmdColmod : Byte
  cmdMadctl : Byte
  cmdNoron : Byte
  cmdDispon : Byte
  cmdCaset : Byte
  cmdRaset : Byte
  cmdRamwr : Byte
  pGamset : List Byte
  pPwctr : List Byte
  pStba : List Byte
  pColmod : List Byte
  pMadctl : List Byte
  initFillColor : Half
  deriving DecidableEq, Repr

/-- The default column of rule R5. PRESUMED (the spec's own mark: from general knowledge, not in
source; log 3). -/
def Cfg.default : Cfg where
  width := 128
  height := 128
  cmdSlpout := 0x11#8
  cmdGamset := 0x26#8
  cmdPwctr := 0xB1#8
  cmdStba := 0xC0#8
  cmdColmod := 0x3A#8
  cmdMadctl := 0x36#8
  cmdNoron := 0x13#8
  cmdDispon := 0x29#8
  cmdCaset := 0x2A#8
  cmdRaset := 0x2B#8
  cmdRamwr := 0x2C#8
  pGamset := [0x04#8]
  pPwctr := [0x0A#8, 0x14#8]
  pStba := [0x0A#8, 0x00#8]
  pColmod := [0x05#8]
  pMadctl := [0x08#8]
  initFillColor := 0xFFFF#16

/-- The command byte of a controller command under a configuration (30_encoding.md rule R101). -/
def Cfg.cmdByte (cfg : Cfg) : LinkCmd → Byte
  | .slpout => cfg.cmdSlpout
  | .gamset => cfg.cmdGamset
  | .pwctr => cfg.cmdPwctr
  | .stba => cfg.cmdStba
  | .colmod => cfg.cmdColmod
  | .madctl => cfg.cmdMadctl
  | .noron => cfg.cmdNoron
  | .dispon => cfg.cmdDispon
  | .caset => cfg.cmdCaset
  | .raset => cfg.cmdRaset
  | .ramwr => cfg.cmdRamwr

/-- The eleven symbols, in the order of rule R101. -/
def LinkCmd.all : List LinkCmd :=
  [.slpout, .gamset, .pwctr, .stba, .colmod, .madctl, .noron, .dispon, .caset, .raset, .ramwr]

/-- MAX_X = WIDTH − 1 (20_memory.md rule R71). -/
def Cfg.maxX (cfg : Cfg) : Nat := cfg.width - 1

/-- MAX_Y = HEIGHT − 1 (20_memory.md rule R71). -/
def Cfg.maxY (cfg : Cfg) : Nat := cfg.height - 1

/-! The fixed parameters of rule R5. -/

/-- X_OFF. -/
def Config.xOff : Half := 2#16
/-- Y_OFF. -/
def Config.yOff : Half := 1#16
/-- RST_HOLD_MS. -/
def Config.rstHoldMs : Nat := 50
/-- RST_RELEASE_MS. -/
def Config.rstReleaseMs : Nat := 120
/-- SLPOUT_MS. -/
def Config.slpoutMs : Nat := 120
/-- COLMOD_MS. -/
def Config.colmodMs : Nat := 10
/-- SETTLE_MS: real time only; no step counts it (43_input_sampler.md rule R202). -/
def Config.settleMs : Nat := 10
/-- TICKS_PER_MS, an unaudited literal of the source. -/
def Config.ticksPerMs : Nat := 3000
/-- COUNT_WEIGHT, an unaudited literal of the source. -/
def Config.countWeight : Nat := 100
/-- CROSS_CORR, unexplained in the source (93_implementation_defined.md U7). -/
def Config.crossCorr : Nat := 10
/-- ADC_FULL_SCALE. -/
def Config.adcFullScale : Nat := 16384

/-! Open and used by no rule (rule R5, log 25). -/

/-- TICK_PERIOD_MS: OPEN. -/
opaque Config.tickPeriodMs : Nat
/-- EVENT_PRIORITY: OPEN and unused; every interleaving is admitted. -/
opaque Config.eventPriority : List Agent

/-! Free values: nothing constrains them. The `Nat` is the draw counter of State. -/

/-- Which agent moves next where no schedule is given (00_scope.md rule R10, log 1). -/
opaque Config.freeAgent : Nat → Agent
/-- The stimulus of a round (45_host_reference.md rule R231, log 18). -/
opaque Config.freeStimulus : Nat → Stimulus
/-- One 14-bit analog sample (rule R232, log 18). -/
opaque Config.freeSample : Nat → BitVec 14
/-- Character `k` of the output for a time figure outside 0..99999 (rule R240, U5, U6, log 18). -/
opaque Config.freeDigitChar : Nat → Nat → Byte
/-- The renderer's geometry, before it is kept inside the extent (rule R235, N10, log 18). -/
opaque Config.geometry : Nat → Nat → Stimulus → List (Half × Half)
/-- The renderer's single fixed colour (rule R235, N6). -/
opaque Config.stimulusColor : Half
/-- The background colour of the Idle state (rule R236, N6). -/
opaque Config.backgroundColor : Half
/-- The fixed prompt (rule R239, N11). -/
opaque Config.prompt : List Byte
/-- The fixed instruction string (rule R239, N11). -/
opaque Config.instructionString : List Byte

end Sys2Proof
end

