-- ==== Sys2Proof/WellFormed.lean ====
section
/-! DEFINITION. What is well-formed: a configuration (00_scope.md rule R6), a descriptor and a link word
(30_encoding.md rules R92, R94, R100, R105). An `Instr` has operands of exactly the widths of rules R95
to R99, so every `Instr` is a legal instruction; the checks stand where illegal terms can be written. -/

namespace Sys2Proof

/-- The eleven command bytes are pairwise distinct (rule R6). -/
abbrev Cfg.CommandsDistinct (cfg : Cfg) : Prop := (LinkCmd.all.map cfg.cmdByte).Nodup

/-- The extent conditions of a well-formed configuration: those of rule R6 with the decision D7 of
92_eei_decisions.md, WIDTH + 2 and HEIGHT + 1 at most 65535. -/
abbrev Cfg.ExtentOk (cfg : Cfg) : Prop :=
  1 ≤ cfg.width ∧ 1 ≤ cfg.height ∧ cfg.width + 2 ≤ 65535 ∧ cfg.height + 1 ≤ 65535 ∧
    cfg.width * cfg.height < 2 ^ 32

/-- The bounds as rule R6 alone writes them, one wider than D7: every coordinate of the extent is addressable.
`ExtentOk` implies them; the statements about traces need no more (log 29). -/
abbrev Cfg.ExtentFits (cfg : Cfg) : Prop :=
  1 ≤ cfg.width ∧ 1 ≤ cfg.height ∧ cfg.width - 1 + 2 ≤ 65535 ∧ cfg.height - 1 + 1 ≤ 65535 ∧
    cfg.width * cfg.height < 2 ^ 32

/-- Each of the five parameter lists has at least one byte (92_eei_decisions.md D8, the decision that rules R6
and R101 cite). -/
abbrev Cfg.ParametersOk (cfg : Cfg) : Prop :=
  cfg.pGamset ≠ [] ∧ cfg.pPwctr ≠ [] ∧ cfg.pStba ≠ [] ∧ cfg.pColmod ≠ [] ∧ cfg.pMadctl ≠ []

/-- 00_scope.md rule R6 with the decisions D7 and D8. That command bytes and parameters are 8-bit values holds by type. -/
abbrev Cfg.WellFormed (cfg : Cfg) : Prop := cfg.CommandsDistinct ∧ cfg.ExtentOk ∧ cfg.ParametersOk

/-- `match` and `mask` of the eleven host rows, as 30_encoding.md rule R94 prints them. -/
def descriptorRows : List (Descriptor × Descriptor) :=
  [(0x0100000000000000#64, 0xFFFEFFFFFFFFFF00#64),
   (0x0200000000000000#64, 0xFFFFFFFFFFFFFFFF#64),
   (0x0300000000000000#64, 0xFFFFFFFFFFFF0000#64),
   (0x0400000000000000#64, 0xFFFF000000000000#64),
   (0x1000000000000000#64, 0xFFFFFFFFFFFFFFFF#64),
   (0x1100000000000000#64, 0xFFFF00000000FFFF#64),
   (0x1200000000000000#64, 0xFFFFFFFFFFFFFFFF#64),
   (0x1300000000000000#64, 0xFFFFFFFFFFFFFFFF#64),
   (0x2000000000000000#64, 0xFFFEFFFFFFFFFFFF#64),
   (0x2100000000000000#64, 0xFFFEFFFFFFFFFFFF#64),
   (0x2200000000000000#64, 0xFFFEFFFFFFFFFFFF#64)]

/-- `D & mask = match` (rule R94). -/
abbrev Descriptor.Selects (d : Descriptor) (row : Descriptor × Descriptor) : Prop :=
  d &&& row.2 = row.1

/-- A descriptor is legal iff it selects a row; otherwise it is illegal (rule R105). -/
abbrev Descriptor.WellFormed (d : Descriptor) : Prop := ∃ row ∈ descriptorRows, Descriptor.Selects d row

/-- A link word that the table names under `cfg`: a data frame, or a command frame whose byte is one
of the eleven (rules R100, R101). -/
abbrev FrameWellFormed (cfg : Cfg) (f : BitVec 9) : Prop :=
  f.extractLsb' 8 1 = 1#1 ∨ f.extractLsb' 0 8 ∈ LinkCmd.all.map cfg.cmdByte

end Sys2Proof
end

