-- ==== Sys2Proof/Decode.lean ====
section
/-! DEFINITION. Decoding and encoding (30_encoding.md): the 64-bit descriptor of the host port and the
9-bit link frame. Decoding is total; a descriptor or frame that names no instruction gives `none`. -/

namespace Sys2Proof

/-- The fields of a descriptor, the same positions in every format (rule R91). -/
structure DescFields where
  opc : Byte
  z7 : BitVec 7
  m : Bit
  x : Half
  y : Half
  v : Half
  deriving DecidableEq, Repr

/-- D[63:56], D[55:49], D[48], D[47:32], D[31:16], D[15:0] (rule R91). -/
def DescFields.ofBits (d : Descriptor) : DescFields where
  opc := d.extractLsb' 56 8
  z7 := d.extractLsb' 49 7
  m := d.extractLsb' 48 1
  x := d.extractLsb' 32 16
  y := d.extractLsb' 16 16
  v := d.extractLsb' 0 16

/-- The descriptor with these fields (rule R91). -/
def DescFields.toBits (f : DescFields) : Descriptor :=
  f.opc ++ f.z7 ++ f.m ++ f.x ++ f.y ++ f.v

/-- `V[15:8]`, which must be zero in SEND (rule R95). -/
def hiByte (v : Half) : Byte := v.extractLsb' 8 8

/-- `V[7:0]`. -/
def loByte (v : Half) : Byte := v.extractLsb' 0 8

/-- `a ++ b` with `a` the high byte (00_scope.md rule R7). -/
def joinBytes (hi lo : Byte) : Half := hi ++ lo

/-- The flag index of M (rule R98). -/
def buttonOfBit (m : Bit) : Button := if m = 0#1 then .confirm else .start

/-- The M bit of a flag index (rule R98). -/
def Button.bit : Button → Bit
  | .confirm => 0#1
  | .start => 1#1

/-- Format Z: no operand (rule R92). -/
def DescFields.isZ (f : DescFields) : Bool := f.m = 0#1 ∧ f.x = 0#16 ∧ f.y = 0#16 ∧ f.v = 0#16
/-- Format B: M and V[7:0]. -/
def DescFields.isB (f : DescFields) : Bool := f.x = 0#16 ∧ f.y = 0#16 ∧ hiByte f.v = 0#8
/-- Format C: V. -/
def DescFields.isC (f : DescFields) : Bool := f.m = 0#1 ∧ f.x = 0#16 ∧ f.y = 0#16
/-- Format P: X, Y, V. -/
def DescFields.isP (f : DescFields) : Bool := f.m = 0#1
/-- Format E: X, Y. -/
def DescFields.isE (f : DescFields) : Bool := f.m = 0#1 ∧ f.v = 0#16
/-- Format F: M. -/
def DescFields.isF (f : DescFields) : Bool := f.x = 0#16 ∧ f.y = 0#16 ∧ f.v = 0#16

/-- The opcode map over fields whose Z7 is zero (rule R94): OPC selects the row, the row's format says
which fields must be zero. -/
def decodeFields (f : DescFields) : Option Instr :=
  if f.opc = 0x01#8 then (if f.isB then some (.send (loByte f.v) f.m) else none)
  else if f.opc = 0x02#8 then (if f.isZ then some .init else none)
  else if f.opc = 0x03#8 then (if f.isC then some (.clear f.v) else none)
  else if f.opc = 0x04#8 then (if f.isP then some (.setPixel f.x f.y f.v) else none)
  else if f.opc = 0x10#8 then (if f.isZ then some .tmrrd else none)
  else if f.opc = 0x11#8 then (if f.isE then some (.elapsed f.x f.y) else none)
  else if f.opc = 0x12#8 then (if f.isZ then some .cntrst else none)
  else if f.opc = 0x13#8 then (if f.isZ then some .cntrd else none)
  else if f.opc = 0x20#8 then (if f.isF then some (.flagrd (buttonOfBit f.m)) else none)
  else if f.opc = 0x21#8 then (if f.isF then some (.flagclr (buttonOfBit f.m)) else none)
  else if f.opc = 0x22#8 then (if f.isF then some (.flagrc (buttonOfBit f.m)) else none)
  else none

/-- Decoding a descriptor: `none` is the illegal descriptor of rule R105. -/
def decode (d : Descriptor) : Option Instr :=
  if (DescFields.ofBits d).z7 = 0#7 then decodeFields (DescFields.ofBits d) else none

/-- The command symbol a byte names under `cfg` (46_controller_double.md rule R262). -/
def Cfg.symbolOf (cfg : Cfg) (b : Byte) : Option LinkCmd :=
  LinkCmd.all.find? (fun c => cfg.cmdByte c = b)

/-- The instruction of a command frame, one per row LINK.<symbol> (30_encoding.md rule R100). -/
def LinkCmd.instr : LinkCmd → Instr
  | .slpout => .linkSlpout
  | .gamset => .linkGamset
  | .pwctr => .linkPwctr
  | .stba => .linkStba
  | .colmod => .linkColmod
  | .madctl => .linkMadctl
  | .noron => .linkNoron
  | .dispon => .linkDispon
  | .caset => .linkCaset
  | .raset => .linkRaset
  | .ramwr => .linkRamwr

/-- The 9-bit word `dc ++ b` of a frame (rule R100). -/
def frameBits (dc : Bit) (b : Byte) : BitVec 9 := dc ++ b

/-- dc of a 9-bit link word. -/
def frameDc (f : BitVec 9) : Bit := f.extractLsb' 8 1

/-- b of a 9-bit link word. -/
def frameByte (f : BitVec 9) : Byte := f.extractLsb' 0 8

/-- Decoding a link frame under `cfg`: `none` is a command byte that is not among the eleven. -/
def decodeFrame (cfg : Cfg) (f : BitVec 9) : Option Instr :=
  if frameDc f = 1#1 then some (.linkData (frameByte f))
  else (cfg.symbolOf (frameByte f)).map LinkCmd.instr

/-- The word of an instruction: a descriptor at the host port, or a frame on the link. -/
inductive Encoded where
  | descriptor (d : Descriptor)
  | frame (f : BitVec 9)
  deriving DecidableEq, Repr

/-- A descriptor from its fields with Z7 = 0. -/
def mkDescriptor (opc : Byte) (m : Bit) (x y v : Half) : Descriptor :=
  DescFields.toBits { opc := opc, z7 := 0#7, m := m, x := x, y := y, v := v }

/-- The word of an instruction (rules R91 to R101). -/
def encode (cfg : Cfg) : Instr → Encoded
  | .send b dc => .descriptor (mkDescriptor 0x01#8 dc 0#16 0#16 (joinBytes 0#8 b))
  | .init => .descriptor (mkDescriptor 0x02#8 0#1 0#16 0#16 0#16)
  | .clear c => .descriptor (mkDescriptor 0x03#8 0#1 0#16 0#16 c)
  | .setPixel x y c => .descriptor (mkDescriptor 0x04#8 0#1 x y c)
  | .tmrrd => .descriptor (mkDescriptor 0x10#8 0#1 0#16 0#16 0#16)
  | .elapsed x y => .descriptor (mkDescriptor 0x11#8 0#1 x y 0#16)
  | .cntrst => .descriptor (mkDescriptor 0x12#8 0#1 0#16 0#16 0#16)
  | .cntrd => .descriptor (mkDescriptor 0x13#8 0#1 0#16 0#16 0#16)
  | .flagrd i => .descriptor (mkDescriptor 0x20#8 i.bit 0#16 0#16 0#16)
  | .flagclr i => .descriptor (mkDescriptor 0x21#8 i.bit 0#16 0#16 0#16)
  | .flagrc i => .descriptor (mkDescriptor 0x22#8 i.bit 0#16 0#16 0#16)
  | .linkSlpout => .frame (frameBits 0#1 (cfg.cmdByte .slpout))
  | .linkGamset => .frame (frameBits 0#1 (cfg.cmdByte .gamset))
  | .linkPwctr => .frame (frameBits 0#1 (cfg.cmdByte .pwctr))
  | .linkStba => .frame (frameBits 0#1 (cfg.cmdByte .stba))
  | .linkColmod => .frame (frameBits 0#1 (cfg.cmdByte .colmod))
  | .linkMadctl => .frame (frameBits 0#1 (cfg.cmdByte .madctl))
  | .linkNoron => .frame (frameBits 0#1 (cfg.cmdByte .noron))
  | .linkDispon => .frame (frameBits 0#1 (cfg.cmdByte .dispon))
  | .linkCaset => .frame (frameBits 0#1 (cfg.cmdByte .caset))
  | .linkRaset => .frame (frameBits 0#1 (cfg.cmdByte .raset))
  | .linkRamwr => .frame (frameBits 0#1 (cfg.cmdByte .ramwr))
  | .linkData b => .frame (frameBits 1#1 b)

/-- Decoding either kind of word. -/
def decodeEncoded (cfg : Cfg) : Encoded → Option Instr
  | .descriptor d => decode d
  | .frame f => decodeFrame cfg f

/-- The instruction of a row of spec/opcode_table.json: a row of at most 16 bits is a 9-bit link word
whose upper bits are zero, read under the default configuration the table prints; a wider row is a
descriptor (log 27). -/
def decodeTableWord (nbits w : Nat) : Option Instr :=
  if nbits ≤ 16 then
    (if w < 2 ^ 9 then decodeFrame Cfg.default (BitVec.ofNat 9 w) else none)
  else (if w < 2 ^ 64 then decode (BitVec.ofNat 64 w) else none)

end Sys2Proof
end

