-- ==== Sys2Proof/Machine/State.lean ====
section
/-! DEFINITION. The state of the machine, as plain data: the fifteen elements of 10_state.md rule R20,
the trace LINK (00_scope.md rule R9), the controller's reference model (46_controller_double.md rule
R260), the host (45_host_reference.md), the configuration (00_scope.md rule R5) and the model's two own
fields; the reasons a step can stop; the state after power-on reset. -/

namespace Sys2Proof.Machine

/-- SEQ.op (10_state.md rule R20). -/
inductive SeqOp where
  | none | send | init | clear | setPixel
  deriving DecidableEq, Repr

/-- DB[i] (10_state.md rule R20, 43_input_sampler.md rule R200). -/
inductive DebState where
  | idle | settle
  deriving DecidableEq, Repr

/-- One element of the list an operation expands to (41_display_driver.md rule R150). -/
inductive Micro where
  | sendf (dc : Bit) (b : Byte)
  | rsta
  | rstr
  | dwell (ms : Nat)
  deriving DecidableEq, Repr

/-- The controller's write cursor (46_controller_double.md rule R260): a pair, END or NONE. -/
inductive Cursor where
  | none
  | at (col row : Half)
  | stop
  deriving DecidableEq, Repr

/-- The controller's frame memory: (key, colour) pairs, keys strictly rising, where the key of a cell
is `gramKey`. An absent cell holds no value (rule R260, log 15). -/
abbrev Gram := List (Nat × Half)

/-- The recorded parameter bytes of the five configuration commands (rule R260). -/
structure Recorded where
  gamset : List Byte
  pwctr : List Byte
  stba : List Byte
  colmod : List Byte
  madctl : List Byte
  deriving DecidableEq, Repr

/-- The state of agent CTRL (rule R260). -/
structure Ctrl where
  k : Nat
  cmd : Option LinkCmd
  pidx : Nat
  xs : Option Half
  xe : Option Half
  ys : Option Half
  ye : Option Half
  cur : Cursor
  half : Option Byte
  on : Bool
  gram : Gram
  recorded : Recorded
  corrupt : Bool
  undef : Bool
  unmodelled : Bool
  deriving DecidableEq, Repr

/-- The double at power-on (rule R260). The rule does not name the recorded parameters there: that the five lists
are empty is DESIGN CHOICE (log 32). -/
def Ctrl.powerOn : Ctrl where
  k := 0
  cmd := Option.none
  pidx := 0
  xs := Option.none
  xe := Option.none
  ys := Option.none
  ye := Option.none
  cur := .none
  half := Option.none
  on := false
  gram := []
  recorded := { gamset := [], pwctr := [], stba := [], colmod := [], madctl := [] }
  corrupt := false
  undef := false
  unmodelled := false

/-- The analog axis the host samples (45_host_reference.md rule R232). -/
inductive Axis where
  | vertical | horizontal
  deriving DecidableEq, Repr

/-- What the host writes to its output channel (rule R233). -/
inductive OutEvent where
  | writeString (text : List Byte)
  | writeChar (b : Byte)
  deriving DecidableEq, Repr

/-- Where the Game Engine stands in the operation sequence of rule R236. A phase names what the
engine does at its next turn. -/
inductive Phase where
  /-- INIT, once -/
  | boot
  /-- Idle: CLEAR background -/
  | idleClear
  /-- Idle: FLAGRD START -/
  | idlePoll
  /-- Idle: RES holds the polled flag -/
  | idleTest
  /-- StimulusShown: choose the stimulus -/
  | choose
  /-- StimulusShown: the SETPIXELs of render, then selectAxis -/
  | render
  /-- StimulusShown: FLAGCLR CONFIRM -/
  | clearConfirm
  /-- StimulusShown: CNTRST -/
  | resetCount
  /-- StimulusShown: TMRRD -/
  | readStart
  /-- RES holds the start reading -/
  | latchStart
  /-- AwaitingMatch: evaluate the predicate -/
  | evaluate
  /-- AwaitingMatch, Cross: RES holds the polled confirm flag -/
  | crossTest
  /-- the predicate was true and TMRRD was issued: RES holds the end reading; ELAPSED -/
  | latchEnd
  /-- Reporting: RES holds the ticks; CNTRD -/
  | latchTicks
  /-- Reporting: RES holds the count; emit -/
  | report
  deriving DecidableEq, Repr

/-- The variables of the host's Game Engine (rules R231 to R239). -/
structure Engine where
  phase : Phase
  stimulus : Stimulus
  todo : List (Half × Half)
  axis : Option Axis
  start : Half
  stop : Half
  ticks : Half
  out : List OutEvent
  deriving DecidableEq, Repr

/-- Agent HOST: a list of descriptors given from outside, still to be presented (70_reset_and_hazards.md
rule R349), or the reference Game Engine (45_host_reference.md rule R236). -/
inductive HostAgent where
  | queue (ds : List Descriptor)
  | engine (e : Engine)
  deriving DecidableEq, Repr

structure State where
  /-- Cfg (00_scope.md rule R5): no step writes it. -/
  cfg : Cfg
  /-- TXBUF -/
  txbuf : Byte
  /-- DC: 0 command, 1 data -/
  dc : Bit
  /-- TXBUSY: 1 busy -/
  txbusy : Bit
  /-- RST: 0 released, 1 asserted -/
  rst : Bit
  /-- SEQ.op -/
  seqOp : SeqOp
  /-- SEQ.pc -/
  seqPc : Nat
  /-- OPX -/
  opx : Half
  /-- OPY -/
  opy : Half
  /-- OPV -/
  opv : Half
  /-- OPM -/
  opm : Bit
  /-- RES -/
  res : Word
  /-- CNT -/
  cnt : Half
  /-- COUNT -/
  count : Word
  /-- PIN[i]: 1 released, 0 pressed -/
  pin : PerButton Bit
  /-- DB[i] -/
  db : PerButton DebState
  /-- FLAG[i] -/
  flag : PerButton Bit
  /-- the part of LINK that CTRL has consumed, oldest first -/
  linkDone : List LinkEvent
  /-- the part of LINK that CTRL has not consumed yet, oldest first -/
  linkTodo : List LinkEvent
  /-- CTRL -/
  ctrl : Ctrl
  /-- HOST -/
  host : HostAgent
  /-- the model's own: which agents move next (log 1) -/
  sched : List Agent
  /-- the model's own: how many free values have been drawn (log 2) -/
  draws : Nat
  deriving DecidableEq, Repr

/-- The observation LINK (00_scope.md rule R9). -/
def State.link (s : State) : List LinkEvent := s.linkDone ++ s.linkTodo

/-- Why the machine would stop with a fault: never. The block "raises no synchronous exception"
(60_exceptions.md rule R290), and TxHang is a stuck state, not a fault code (rule R292). Nobody raises
a fault; safe (log 22). -/
inductive Fault where
  deriving DecidableEq, Repr

/-- Why a step gives a descriptor no meaning. -/
inductive Refusal where
  /-- An instruction without a meaning in this model: raised by `exec`'s refused arms, of which none is
  left. Safe: the run stops. -/
  | notModelled (mnemonic : String)
  /-- IllegalOp (60_exceptions.md rule R292): raised by the host port for a descriptor that matches no
  row of 30_encoding.md rule R94; records the descriptor. Safe: "errs toward unprovable" (rule R105). -/
  | illegalOp (d : Descriptor)
  deriving DecidableEq, Repr

/-- The elements rule R40 leaves unspecified, CNT's draw (rule R41) and the pin levels ENV drives. -/
structure Unspecified where
  txbuf : Byte
  dc : Bit
  opx : Half
  opy : Half
  opv : Half
  opm : Bit
  res : Word
  cnt : Half
  pin : PerButton Bit
  deriving DecidableEq, Repr

/-- The state after power-on reset (10_state.md rules R40 to R42, 70_reset_and_hazards.md rule R331)
under a configuration and with any value of what the rules leave unspecified: a statement about reset
quantifies over `cfg` and `u`. Nothing is presented by the host and no agent is scheduled. -/
def State.powerOn (cfg : Cfg) (u : Unspecified) : State where
  cfg := cfg
  txbuf := u.txbuf
  dc := u.dc
  txbusy := 0#1
  rst := 0#1
  seqOp := .none
  seqPc := 0
  opx := u.opx
  opy := u.opy
  opv := u.opv
  opm := u.opm
  res := u.res
  cnt := u.cnt
  count := 0#32
  pin := u.pin
  db := { confirm := .idle, start := .idle }
  flag := { confirm := 0#1, start := 0#1 }
  linkDone := []
  linkTodo := []
  ctrl := Ctrl.powerOn
  host := .queue []
  sched := []
  draws := 0

/-- The values `State.reset` names for what the rules leave unspecified. DESIGN CHOICE, unsafe (logs
4, 5, 6): registers 0, pins released. -/
def Unspecified.chosen : Unspecified where
  txbuf := 0#8
  dc := 0#1
  opx := 0#16
  opy := 0#16
  opv := 0#16
  opm := 0#1
  res := 0#32
  cnt := 0#16
  pin := { confirm := 1#1, start := 1#1 }

/-- The machine right after reset, under the default configuration (PRESUMED, log 3). -/
def State.reset : State := State.powerOn Cfg.default Unspecified.chosen

end Sys2Proof.Machine
end

