-- ==== Sys2Proof/Machine/Operands.lean ====
section
/-! DEFINITION. The operand forms (30_encoding.md rules R95 to R99) and the arithmetic on operands. -/

namespace Sys2Proof

/-- The cell FLAG[i], PIN[i] or DB[i] (00_scope.md rule R8). -/
def PerButton.get {α : Type} (p : PerButton α) : Button → α
  | .confirm => p.confirm
  | .start => p.start

/-- `x[i] <- v` (00_scope.md rule R8). -/
def PerButton.set {α : Type} (p : PerButton α) (v : α) : Button → PerButton α
  | .confirm => { p with confirm := v }
  | .start => { p with start := v }

end Sys2Proof

namespace Sys2Proof.Machine

/-- `zext_32` of a 16-bit value (10_state.md rule R26). -/
def zextHalf (v : Half) : Word := v.zeroExtend 32

/-- `zext_32` of one bit. -/
def zextBit (b : Bit) : Word := b.zeroExtend 32

/-- `zext_16` of SEND's byte: V with V[15:8] = 0 (rule R95). -/
def byteOperand (b : Byte) : Half := joinBytes 0#8 b

/-- The addressable column `x +_16 X_OFF` (20_memory.md rule R70). -/
def addrX (x : Half) : Half := x + Config.xOff

/-- The addressable row `y +_16 Y_OFF` (20_memory.md rule R70). -/
def addrY (y : Half) : Half := y + Config.yOff

/-- `end −_16 start` (42_timer.md rules R183, R184). -/
def elapsedTicks (start stop : Half) : Half := stop - start

end Sys2Proof.Machine
end

