-- ==== Sys2Proof/Machine/Flags.lean ====
section
/-! DEFINITION. The flags: FLAG[i] (10_state.md rule R28) and TXBUSY (rule R29). The block has no
condition codes and no operation sets a flag from an arithmetic result (rule R30). -/

namespace Sys2Proof.Machine

/-- FLAG[i], read by level (43_input_sampler.md rule R205). -/
def State.readFlag (s : State) (i : Button) : Bit := s.flag.get i

/-- `FLAG[i] <- v`. -/
def State.writeFlag (s : State) (i : Button) (v : Bit) : State := { s with flag := s.flag.set v i }

/-- `FLAG[i] <- 0`, which only the host does (rule R28). -/
def State.clearFlag (s : State) (i : Button) : State := s.writeFlag i 0#1

/-- The latch of the relook: "if still asserted, latch the corresponding flag"; the instance never
writes 0 (43_input_sampler.md rule R203). -/
def State.latchFlag (s : State) (i : Button) : State :=
  if s.pin.get i = 0#1 then s.writeFlag i 1#1 else s

/-- The transmit unit signals "not busy" (10_state.md rule R29). -/
def State.txFree (s : State) : Bool := s.txbusy = 0#1

end Sys2Proof.Machine
end

