-- ==== Sys2Proof/Machine/Ops.lean ====
section
/-! DEFINITION. The named operations the meanings and the agents share: the host port, RES, LINK, the
transmit register, the reset line, the sequencer's position, and the entry and return of an event. -/

namespace Sys2Proof.Machine

/-- The port accepts a descriptor only when SEQ.op = NONE (30_encoding.md rule R93). -/
def State.portFree (s : State) : Bool := s.seqOp = .none

/-- The issue step of an operation whose effect is `f`: while SEQ.op is not NONE "the host has no issue
step: it is blocked" (rule R93), and nothing changes (log 23). -/
def State.onPort (s : State) (f : State → State) : Host.Outcome State Fault Refusal :=
  if s.portFree then .next (f s) else .next s

/-- `RES <- v` (10_state.md rule R26). -/
def State.setRes (s : State) (v : Word) : State := { s with res := v }

/-- `CNT <- v`. -/
def State.setCnt (s : State) (v : Half) : State := { s with cnt := v }

/-- `COUNT <- v`. -/
def State.setCount (s : State) (v : Word) : State := { s with count := v }

/-- The issue step of a display operation: latch the operands, start SEQ (rule R93). -/
def State.issue (s : State) (op : SeqOp) (x y v : Half) (m : Bit) : State :=
  { s with opx := x, opy := y, opv := v, opm := m, seqOp := op, seqPc := 0 }

/-- `emit e` (00_scope.md rule R8). -/
def State.emit (s : State) (e : LinkEvent) : State := { s with linkTodo := s.linkTodo ++ [e] }

/-- The three writes of a send step, in one atomic step (40_serial_channel.md rule R131). -/
def State.loadTx (s : State) (dc : Bit) (b : Byte) : State :=
  { s with dc := dc, txbuf := b, txbusy := 1#1 }

/-- The frame is wholly on the link and TXBUSY is cleared (rule R132). -/
def State.finishTx (s : State) : State := { s.emit (.frame s.dc s.txbuf) with txbusy := 0#1 }

/-- RST <- v (41_display_driver.md rule R151). -/
def State.setRst (s : State) (v : Bit) : State := { s with rst := v }

/-- SEQ moves past the micro-event just performed in a list of `n`; at the end of the list the operation
completes: SEQ.op <- NONE, SEQ.pc <- 0, RES <- 0 (10_state.md rules R26, R27). -/
def State.advanceSeq (s : State) (n : Nat) : State :=
  if s.seqPc + 1 < n then { s with seqPc := s.seqPc + 1 }
  else { s with seqOp := .none, seqPc := 0, res := 0#32 }

/-- `PIN[i] <- v`, by ENV only. -/
def State.writePin (s : State) (i : Button) (v : Bit) : State := { s with pin := s.pin.set v i }

/-- `DB[i] <- v`. -/
def State.writeDb (s : State) (i : Button) (v : DebState) : State := { s with db := s.db.set v i }

/-- Entry of EV_START or EV_CONFIRM: a falling edge while DB[i] = IDLE starts the settle, and one while
DB[i] = SETTLE starts nothing (43_input_sampler.md rules R201, R204). Nothing is saved and nothing is
switched (60_exceptions.md rule R298). -/
def State.enterEvent (s : State) (i : Button) : State :=
  if s.db.get i = .idle then s.writeDb i .settle else s

/-- Return from the event: the relook, which latches the flag if the pin still reads low and re-arms the
edge detector (43_input_sampler.md rule R203, 60_exceptions.md rule R299). -/
def State.leaveEvent (s : State) (i : Button) : State := (s.latchFlag i).writeDb i .idle

end Sys2Proof.Machine
end

