-- ==== Sys2Proof/Machine/Display.lean ====
section
/-! DEFINITION. The Display Driver (41_display_driver.md): the micro-event lists of the building blocks
and of the display operations, and the meanings of INIT, CLEAR and SETPIXEL. -/

namespace Sys2Proof.Machine

/-- A 16-bit value as two data frames, most significant byte first (20_memory.md rules R63, R64). -/
def halfFrames (v : Half) : List Micro := [.sendf 1#1 (hiByte v), .sendf 1#1 (loByte v)]

/-- `WINDOW(xs, xe, ys, ye)` (rule R152). -/
def windowList (cfg : Cfg) (xs xe ys ye : Half) : List Micro :=
  [.sendf 0#1 cfg.cmdCaset] ++ halfFrames xs ++ halfFrames xe ++
    [.sendf 0#1 cfg.cmdRaset] ++ halfFrames ys ++ halfFrames ye

/-- `MEMWR` (rule R153). -/
def memwrList (cfg : Cfg) : List Micro := [.sendf 0#1 cfg.cmdRamwr]

/-- `PIXEL(c)` (rule R154). -/
def pixelList (c : Half) : List Micro := halfFrames c

/-- `FULLWIN` (rule R155). -/
def fullwinList (cfg : Cfg) : List Micro :=
  windowList cfg Config.xOff (addrX (BitVec.ofNat 16 cfg.maxX))
    Config.yOff (addrY (BitVec.ofNat 16 cfg.maxY))

/-- `FILL(c)`: the window once, the memory-write command once, then WIDTH × HEIGHT pixels (rule R156). -/
def fillList (cfg : Cfg) (c : Half) : List Micro :=
  fullwinList cfg ++ memwrList cfg ++ (List.replicate (cfg.width * cfg.height) (pixelList c)).flatten

/-- A configuration command and its parameters (rule R157 lines 7 to 10 and 12). -/
def configList (cmd : Byte) (params : List Byte) : List Micro :=
  .sendf 0#1 cmd :: params.map (Micro.sendf 1#1)

/-- Lines 1 to 13 of INIT (rule R157). -/
def initSequence (cfg : Cfg) : List Micro :=
  [.rsta, .dwell Config.rstHoldMs, .rstr, .dwell Config.rstReleaseMs,
    .sendf 0#1 cfg.cmdSlpout, .dwell Config.slpoutMs] ++
  configList cfg.cmdGamset cfg.pGamset ++
  configList cfg.cmdPwctr cfg.pPwctr ++
  configList cfg.cmdStba cfg.pStba ++
  configList cfg.cmdColmod cfg.pColmod ++ [.dwell Config.colmodMs] ++
  configList cfg.cmdMadctl cfg.pMadctl ++
  [.sendf 0#1 cfg.cmdNoron]

/-- `ucode(op)`, a function of the operation, its latched operands and Cfg only (rule R150): SEND R130,
INIT R157, CLEAR R158, SETPIXEL R159. -/
def ucode (cfg : Cfg) (op : SeqOp) (x y v : Half) (m : Bit) : List Micro :=
  match op with
  | .none => []
  | .send => [.sendf m (loByte v)]
  | .init => initSequence cfg ++ fillList cfg cfg.initFillColor ++ [.sendf 0#1 cfg.cmdDispon]
  | .clear => fillList cfg v
  | .setPixel => windowList cfg (addrX x) (addrX x) (addrY y) (addrY y) ++ memwrList cfg ++ pixelList v

/-- The list of the operation in progress. -/
def State.ucode (s : State) : List Micro := Machine.ucode s.cfg s.seqOp s.opx s.opy s.opv s.opm

/-- The link event a micro-event puts on LINK, a frame by way of the transmit unit (rules R131, R132,
R151). -/
def Micro.event : Micro → LinkEvent
  | .sendf dc b => .frame dc b
  | .rsta => .rstAssert
  | .rstr => .rstRelease
  | .dwell n => .dwell n

/-- INIT (rule R157): all operand fields of its descriptor are zero. -/
def execInit (s : State) : Host.Outcome State Fault Refusal :=
  s.onPort (fun s => s.issue .init 0#16 0#16 0#16 0#1)

/-- CLEAR color (rule R158). -/
def execClear (color : Half) (s : State) : Host.Outcome State Fault Refusal :=
  s.onPort (fun s => s.issue .clear 0#16 0#16 color 0#1)

/-- SETPIXEL x, y, color (rule R159): coordinates are not checked (rule R161). -/
def execSetPixel (x y color : Half) (s : State) : Host.Outcome State Fault Refusal :=
  s.onPort (fun s => s.issue .setPixel x y color 0#1)

end Sys2Proof.Machine
end

