-- ==== Sys2Proof/Machine/Gram.lean ====
section
/-! DEFINITION. The controller's frame memory (46_controller_double.md rules R260, R261, R267): a list of
(key, colour) pairs with strictly rising keys; an absent cell holds no value (log 15). -/

namespace Sys2Proof.Machine

/-- The key of the cell (col, row). -/
def gramKey (col row : Half) : Nat := row.toNat * 65536 + col.toNat

/-- The value at a key, if the cell holds one. -/
def Gram.read : Gram → Nat → Option Half
  | [], _ => none
  | (k, v) :: g, a => if a = k then some v else Gram.read g a

/-- Give a cell a value; the keys stay strictly rising. -/
def Gram.write : Gram → Nat → Half → Gram
  | [], a, v => [(a, v)]
  | (k, w) :: g, a, v =>
    if a < k then (a, v) :: (k, w) :: g
    else if a = k then (a, v) :: g
    else (k, w) :: Gram.write g a v

/-- The canonical form: keys strictly rising. -/
abbrev Gram.wf (g : Gram) : Prop := g.Pairwise (fun p q => p.1 < q.1)

/-- (col, row) lies in the full-extent window (20_memory.md rule R71). -/
def inExtent (cfg : Cfg) (col row : Half) : Bool :=
  Config.xOff.toNat ≤ col.toNat ∧ col.toNat ≤ cfg.maxX + Config.xOff.toNat ∧
    Config.yOff.toNat ≤ row.toNat ∧ row.toNat ≤ cfg.maxY + Config.yOff.toNat

/-- `GRAM[x + X_OFF, y + Y_OFF]`, what frame memory holds at the visible pixel (rule R261); what a claim may say of
it is `Ctrl.visible`. -/
def Gram.visible (g : Gram) (x y : Half) : Option Half := g.read (gramKey (addrX x) (addrY y))

end Sys2Proof.Machine
end

