-- ==== Sys2Proof/Machine/Controller.lean ====
section
/-! DEFINITION. Agent CTRL, the display controller's reference model (46_controller_double.md), and the
meanings of the twelve link rows: what the controller does with each frame as it receives it. -/

namespace Sys2Proof.Machine

/-! Reset, order and settle times (rules R270 to R272). -/

/-- The expected initialisation sequence `E`: the trace of lines 1 to 13 of INIT (rule R270). -/
def expected (cfg : Cfg) : List LinkEvent := (initSequence cfg).map Micro.event

/-- Whether an incoming event matches an element of `E`: a dwell if it is at least as long, anything else
if it is equal (rule R270). -/
def eventMatches (e want : LinkEvent) : Bool :=
  match e, want with
  | .dwell n, .dwell m => m ≤ n
  | e, want => e = want

/-- An event is a dwell. -/
def isDwell : LinkEvent → Bool
  | .dwell _ => true
  | _ => false

/-- The controller is ready iff `k = |E|` (rule R270). -/
def Ctrl.ready (cfg : Cfg) (c : Ctrl) : Bool := c.k = (expected cfg).length

/-- The comparison with `E[k]` of a frame, a reset release or a dwell (rule R270): a match moves `k`, a
dwell where none is expected is ignored, a mismatch sets UNDEFINED. Past the end of `E` there is
nothing to compare. -/
def Ctrl.track (cfg : Cfg) (e : LinkEvent) (c : Ctrl) : Ctrl :=
  match (expected cfg)[c.k]? with
  | none => c
  | some want =>
    if eventMatches e want then { c with k := c.k + 1 }
    else if isDwell e && !isDwell want then c
    else { c with undef := true }

/-- RST_ASSERT (rule R271): marks are kept, frame memory is left without a value. `pidx` is not named by
the rule and is kept (log 12). -/
def Ctrl.resetPulse (c : Ctrl) : Ctrl :=
  { c with
    cmd := none, xs := none, xe := none, ys := none, ye := none, cur := .none, half := none,
    on := false, gram := [],
    recorded := { gamset := [], pwctr := [], stba := [], colmod := [], madctl := [] }, k := 1 }

/-! Command frames (rule R262). -/

/-- RAMWR puts the cursor at the start of the window, if the window is whole and not reversed; otherwise
CORRUPT. A window that reaches outside the extent is not marked here: the first pixel written outside marks it (rule
R267). D27 can be read to mark the window itself; that it does not is DESIGN CHOICE (log 33). -/
def Ctrl.openCursor (c : Ctrl) : Ctrl :=
  match c.xs, c.xe, c.ys, c.ye with
  | some xs, some xe, some ys, some ye =>
    if xs.toNat ≤ xe.toNat ∧ ys.toNat ≤ ye.toNat then { c with cur := .at xs ys }
    else { c with cur := .none, corrupt := true }
  | _, _, _, _ => { c with cur := .none, corrupt := true }

/-- What every known command frame does: the half pixel is dropped, the command is current. -/
def Ctrl.beginCommand (sym : LinkCmd) (c : Ctrl) : Ctrl :=
  { c with half := none, cmd := some sym, pidx := 0 }

/-- A command frame whose byte is among the eleven. -/
def Ctrl.command (sym : LinkCmd) (c : Ctrl) : Ctrl :=
  match sym with
  | .ramwr => (c.beginCommand .ramwr).openCursor
  | .dispon => { c.beginCommand .dispon with on := true }
  | .slpout => c.beginCommand .slpout
  | .gamset => c.beginCommand .gamset
  | .pwctr => c.beginCommand .pwctr
  | .stba => c.beginCommand .stba
  | .colmod => c.beginCommand .colmod
  | .madctl => c.beginCommand .madctl
  | .noron => c.beginCommand .noron
  | .caset => c.beginCommand .caset
  | .raset => c.beginCommand .raset

/-- A command frame whose byte is among none of the eleven. -/
def Ctrl.unknownCommand (c : Ctrl) : Ctrl := { c with half := none, cmd := none, unmodelled := true }

/-! Data frames (rules R263 to R268). -/

/-- The high byte of a window coordinate makes it a value with low byte 0 (rule R264, log 13). -/
def windowHigh (b : Byte) : Option Half := some (joinBytes b 0#8)

/-- The low byte of a window coordinate (rule R264). -/
def windowLow (w : Option Half) (b : Byte) : Option Half := w.map (fun v => joinBytes (hiByte v) b)

/-- A data frame after CASET (rule R264). -/
def Ctrl.casetData (b : Byte) (c : Ctrl) : Ctrl :=
  if c.pidx = 0 then { c with xs := windowHigh b }
  else if c.pidx = 1 then { c with xs := windowLow c.xs b }
  else if c.pidx = 2 then { c with xe := windowHigh b }
  else if c.pidx = 3 then { c with xe := windowLow c.xe b }
  else { c with unmodelled := true }

/-- A data frame after RASET (rule R264). -/
def Ctrl.rasetData (b : Byte) (c : Ctrl) : Ctrl :=
  if c.pidx = 0 then { c with ys := windowHigh b }
  else if c.pidx = 1 then { c with ys := windowLow c.ys b }
  else if c.pidx = 2 then { c with ye := windowHigh b }
  else if c.pidx = 3 then { c with ye := windowLow c.ye b }
  else { c with unmodelled := true }

/-- `MemWrite((col, row), 2, c)` (rule R267). -/
def Ctrl.memWrite (cfg : Cfg) (col row v : Half) (c : Ctrl) : Ctrl :=
  if inExtent cfg col row then { c with gram := c.gram.write (gramKey col row) v }
  else { c with corrupt := true }

/-- The cursor after a pixel at (col, row) (rule R266). Without a whole window there is no cursor, which
no run reaches (log 28). -/
def Ctrl.nextCursor (c : Ctrl) (col row : Half) : Cursor :=
  match c.xs, c.xe, c.ye with
  | some xs, some xe, some ye =>
    if col.toNat < xe.toNat then .at (col + 1#16) row
    else if row.toNat < ye.toNat then .at xs (row + 1#16)
    else .stop
  | _, _, _ => .none

/-- A whole pixel arrives (rule R265). -/
def Ctrl.pixel (cfg : Cfg) (v : Half) (c : Ctrl) : Ctrl :=
  match c.cur with
  | .at col row => { c.memWrite cfg col row v with cur := c.nextCursor col row }
  | .stop => { c with corrupt := true }
  | .none => { c with corrupt := true }

/-- A data frame after RAMWR: high byte first (rule R265). -/
def Ctrl.ramwrData (cfg : Cfg) (b : Byte) (c : Ctrl) : Ctrl :=
  match c.half with
  | none => { c with half := some b }
  | some hi => Ctrl.pixel cfg (joinBytes hi b) { c with half := none }

/-- A data frame, interpreted by the current command, but for `pidx` (rule R263). -/
def Ctrl.dataEffect (cfg : Cfg) (b : Byte) (c : Ctrl) : Ctrl :=
  match c.cmd with
  | some .caset => c.casetData b
  | some .raset => c.rasetData b
  | some .ramwr => c.ramwrData cfg b
  | some .gamset => { c with recorded := { c.recorded with gamset := c.recorded.gamset ++ [b] } }
  | some .pwctr => { c with recorded := { c.recorded with pwctr := c.recorded.pwctr ++ [b] } }
  | some .stba => { c with recorded := { c.recorded with stba := c.recorded.stba ++ [b] } }
  | some .colmod => { c with recorded := { c.recorded with colmod := c.recorded.colmod ++ [b] } }
  | some .madctl => { c with recorded := { c.recorded with madctl := c.recorded.madctl ++ [b] } }
  | some .slpout => { c with unmodelled := true }
  | some .noron => { c with unmodelled := true }
  | some .dispon => { c with unmodelled := true }
  | none => { c with unmodelled := true }

/-- A data frame: "in every case pidx <- pidx + 1" (rule R263). -/
def Ctrl.data (cfg : Cfg) (b : Byte) (c : Ctrl) : Ctrl :=
  { c.dataEffect cfg b with pidx := c.pidx + 1 }

/-! One event (rule R260). -/

/-- CTRL consumes one event of LINK. A frame is compared with `E[k]` and processed, on a match and on a
mismatch alike (rule R270, log 11); a reset release on a ready controller sets UNMODELLED (rule R272,
log 14). -/
def Ctrl.consume (cfg : Cfg) (e : LinkEvent) (c : Ctrl) : Ctrl :=
  match e with
  | .frame dc b =>
    if dc = 1#1 then (c.track cfg (.frame dc b)).data cfg b
    else
      match cfg.symbolOf b with
      | some sym => (c.track cfg (.frame dc b)).command sym
      | none => (c.track cfg (.frame dc b)).unknownCommand
  | .rstAssert => c.resetPulse
  | .rstRelease => if c.ready cfg then { c with unmodelled := true } else c.track cfg .rstRelease
  | .dwell n => c.track cfg (.dwell n)

/-- CTRL consumes a trace, in order (rule R260). -/
def Ctrl.consumeAll (cfg : Cfg) (es : List LinkEvent) (c : Ctrl) : Ctrl :=
  es.foldl (fun c e => c.consume cfg e) c

/-! What the double says (rules R261, R267, R272). `none` is that it says nothing: no claim holds of the cell. -/

/-- No sticky mark is set (rule R272). -/
abbrev Ctrl.NoMark (c : Ctrl) : Prop := c.corrupt = false ∧ c.undef = false ∧ c.unmodelled = false

/-- What the double says of the cell at a key: "once CORRUPT is set the double says nothing of any cell" (rule
R267). -/
def Ctrl.cell (c : Ctrl) (a : Nat) : Option Half := if c.corrupt then none else c.gram.read a

/-- `Visible(x, y)` as a claim may use it: for a visible pixel of the extent (rule R261), and "iff no mark is set
and every cell asked about holds a value" (rule R272). -/
def Ctrl.visible (cfg : Cfg) (c : Ctrl) (x y : Half) : Option Half :=
  if c.NoMark ∧ x.toNat ≤ cfg.maxX ∧ y.toNat ≤ cfg.maxY then c.gram.visible x y else none

/-- "The picture is shown iff `on` is true" (rule R272). -/
def Ctrl.shown (c : Ctrl) : Bool := c.on

/-! The meanings of the link rows. -/

/-- CTRL receives the command frame of `sym`. -/
def State.receiveCommand (s : State) (sym : LinkCmd) : State :=
  { s with ctrl := (s.ctrl.track s.cfg (.frame 0#1 (s.cfg.cmdByte sym))).command sym }

/-- CTRL receives a data frame. -/
def State.receiveData (s : State) (b : Byte) : State :=
  { s with ctrl := (s.ctrl.track s.cfg (.frame 1#1 b)).data s.cfg b }

/-- LINK.SLPOUT (rule R262). -/
def execLinkSlpout (s : State) : Host.Outcome State Fault Refusal := .next (s.receiveCommand .slpout)

/-- LINK.GAMSET (rule R262). -/
def execLinkGamset (s : State) : Host.Outcome State Fault Refusal := .next (s.receiveCommand .gamset)

/-- LINK.PWCTR (rule R262). -/
def execLinkPwctr (s : State) : Host.Outcome State Fault Refusal := .next (s.receiveCommand .pwctr)

/-- LINK.STBA (rule R262). -/
def execLinkStba (s : State) : Host.Outcome State Fault Refusal := .next (s.receiveCommand .stba)

/-- LINK.COLMOD (rule R262). -/
def execLinkColmod (s : State) : Host.Outcome State Fault Refusal := .next (s.receiveCommand .colmod)

/-- LINK.MADCTL (rule R262). -/
def execLinkMadctl (s : State) : Host.Outcome State Fault Refusal := .next (s.receiveCommand .madctl)

/-- LINK.NORON (rule R262). -/
def execLinkNoron (s : State) : Host.Outcome State Fault Refusal := .next (s.receiveCommand .noron)

/-- LINK.DISPON (rule R262). -/
def execLinkDispon (s : State) : Host.Outcome State Fault Refusal := .next (s.receiveCommand .dispon)

/-- LINK.CASET (rule R262). -/
def execLinkCaset (s : State) : Host.Outcome State Fault Refusal := .next (s.receiveCommand .caset)

/-- LINK.RASET (rule R262). -/
def execLinkRaset (s : State) : Host.Outcome State Fault Refusal := .next (s.receiveCommand .raset)

/-- LINK.RAMWR (rule R262). -/
def execLinkRamwr (s : State) : Host.Outcome State Fault Refusal := .next (s.receiveCommand .ramwr)

/-- LINK.DATA (rule R263). -/
def execLinkData (b : Byte) (s : State) : Host.Outcome State Fault Refusal := .next (s.receiveData b)

end Sys2Proof.Machine
end

