-- ==== Sys2Proof/Machine/Input.lean ====
section
/-! DEFINITION. The debounced input sampler (43_input_sampler.md): FLAGRD, FLAGCLR, FLAGRC, the agents
DB[i] and the two steps of ENV per pin. -/

namespace Sys2Proof.Machine

/-- FLAGRD flag: `RES <- zext_32(FLAG[i])` (rule R206). -/
def execFlagrd (i : Button) (s : State) : Host.Outcome State Fault Refusal :=
  s.onPort (fun s => s.setRes (zextBit (s.readFlag i)))

/-- FLAGCLR flag: `FLAG[i] <- 0 ; RES <- 0` (rule R207). -/
def execFlagclr (i : Button) (s : State) : Host.Outcome State Fault Refusal :=
  s.onPort (fun s => (s.clearFlag i).setRes 0#32)

/-- FLAGRC flag: `RES <- zext_32(FLAG[i]) ; FLAG[i] <- 0` in one atomic step (rule R208). -/
def execFlagrc (i : Button) (s : State) : Host.Outcome State Fault Refusal :=
  s.onPort (fun s => (s.setRes (zextBit (s.readFlag i))).clearFlag i)

/-- The relook of DB[i], enabled iff DB[i] = SETTLE (rule R203). -/
def State.dbStep (s : State) (i : Button) : State :=
  if s.db.get i = .settle then s.leaveEvent i else s

/-- PinFall(i), enabled iff PIN[i] = 1 (rule R201). -/
def State.pinFallStep (s : State) (i : Button) : State :=
  if s.pin.get i = 1#1 then (s.writePin i 0#1).enterEvent i else s

/-- PinRise(i), enabled iff PIN[i] = 0: a rising edge starts nothing (rule R201). -/
def State.pinRiseStep (s : State) (i : Button) : State :=
  if s.pin.get i = 0#1 then s.writePin i 1#1 else s

end Sys2Proof.Machine
end

