-- ==== Sys2Proof/Machine/Serial.lean ====
section
/-! DEFINITION. The Serial Command Channel (40_serial_channel.md): SEND, the steps of agent SEQ and the
step of agent TX. -/

namespace Sys2Proof.Machine

/-- SEND byte, dc (rule R130): byte and dc are passed through unchanged. -/
def execSend (byte : Byte) (isData : Bit) (s : State) : Host.Outcome State Fault Refusal :=
  s.onPort (fun s => s.issue .send 0#16 0#16 (byteOperand byte) isData)

/-- What one micro-event does, but for SEQ.pc (40_serial_channel.md rule R131, 41_display_driver.md
rule R151). -/
def State.perform (s : State) : Micro → State
  | .sendf dc b => s.loadTx dc b
  | .rsta => (s.setRst 1#1).emit .rstAssert
  | .rstr => (s.setRst 0#1).emit .rstRelease
  | .dwell n => s.emit (.dwell n)

/-- The micro-event at SEQ.pc, if SEQ has a step: an operation is in progress and TXBUSY = 0 (rules R131,
R151). A position beyond the list names none (log 20). -/
def State.nextMicro (s : State) : Option Micro :=
  if s.txFree then s.ucode[s.seqPc]? else none

/-- A step of agent SEQ (10_state.md rule R27). -/
def State.seqStep (s : State) : State :=
  match s.nextMicro with
  | some m => (s.perform m).advanceSeq s.ucode.length
  | none => s

/-- A step of agent TX, enabled iff TXBUSY = 1 (rule R132). -/
def State.txStep (s : State) : State := if s.txFree then s else s.finishTx

end Sys2Proof.Machine
end

