-- ==== Sys2Proof/Machine/Timer.lean ====
section
/-! DEFINITION. The free-running timer and the periodic-tick counter (42_timer.md): TMRRD, ELAPSED, CNTRST,
CNTRD and the agents CLK and TICK. -/

namespace Sys2Proof.Machine

/-- TMRRD: `RES <- zext_32(CNT)` (rule R182). -/
def execTmrrd (s : State) : Host.Outcome State Fault Refusal :=
  s.onPort (fun s => s.setRes (zextHalf s.cnt))

/-- ELAPSED start, end: `RES <- zext_32(end −_16 start)` (rule R183). -/
def execElapsed (start stop : Half) (s : State) : Host.Outcome State Fault Refusal :=
  s.onPort (fun s => s.setRes (zextHalf (elapsedTicks start stop)))

/-- CNTRST: `COUNT <- 0 ; RES <- 0` (rule R186). -/
def execCntrst (s : State) : Host.Outcome State Fault Refusal :=
  s.onPort (fun s => (s.setCount 0#32).setRes 0#32)

/-- CNTRD: `RES <- COUNT` (rule R187). -/
def execCntrd (s : State) : Host.Outcome State Fault Refusal :=
  s.onPort (fun s => s.setRes s.count)

/-- A step of agent CLK: `CNT <- CNT +_16 1` (rule R180). -/
def State.clkStep (s : State) : State := s.setCnt (s.cnt + 1#16)

/-- A step of agent TICK: `COUNT <- COUNT +_32 1` (rule R188). -/
def State.tickStep (s : State) : State := s.setCount (s.count + 1#32)

end Sys2Proof.Machine
end

