-- ==== Sys2Proof/Machine/Dispatch.lean ====
section
/-! DEFINITION. One arm per constructor of Instr, each one direct call of its meaning. -/

namespace Sys2Proof.Machine

def exec (i : Instr) (s : State) : Host.Outcome State Fault Refusal :=
  match i with
  | .send byte isData => Sys2Proof.Machine.execSend byte isData s
  | .init => Sys2Proof.Machine.execInit s
  | .clear color => Sys2Proof.Machine.execClear color s
  | .setPixel x y color => Sys2Proof.Machine.execSetPixel x y color s
  | .tmrrd => Sys2Proof.Machine.execTmrrd s
  | .elapsed start stop => Sys2Proof.Machine.execElapsed start stop s
  | .cntrst => Sys2Proof.Machine.execCntrst s
  | .cntrd => Sys2Proof.Machine.execCntrd s
  | .flagrd j => Sys2Proof.Machine.execFlagrd j s
  | .flagclr j => Sys2Proof.Machine.execFlagclr j s
  | .flagrc j => Sys2Proof.Machine.execFlagrc j s
  | .linkSlpout => Sys2Proof.Machine.execLinkSlpout s
  | .linkGamset => Sys2Proof.Machine.execLinkGamset s
  | .linkPwctr => Sys2Proof.Machine.execLinkPwctr s
  | .linkStba => Sys2Proof.Machine.execLinkStba s
  | .linkColmod => Sys2Proof.Machine.execLinkColmod s
  | .linkMadctl => Sys2Proof.Machine.execLinkMadctl s
  | .linkNoron => Sys2Proof.Machine.execLinkNoron s
  | .linkDispon => Sys2Proof.Machine.execLinkDispon s
  | .linkCaset => Sys2Proof.Machine.execLinkCaset s
  | .linkRaset => Sys2Proof.Machine.execLinkRaset s
  | .linkRamwr => Sys2Proof.Machine.execLinkRamwr s
  | .linkData b => Sys2Proof.Machine.execLinkData b s

end Sys2Proof.Machine
end

