-- ==== Sys2Proof/Machine/Engine.lean ====
section
/-! DEFINITION. The reference host (45_host_reference.md): the Game Engine as a sequence of host operations
(rule R236), the match predicate (R237), the time figure (R238) and the digit output (R239, R240). It is
outside the block (00_scope.md rule R4) and one of the two forms of agent HOST (log 9). -/

namespace Sys2Proof.Machine

/-- The match predicate on an analog sample (rule R237): below 20% or above 80% of full scale. Cross looks
at the flag, not at a sample. -/
def sampleMatches (st : Stimulus) (sample : BitVec 14) : Bool :=
  match st with
  | .up => 5 * sample.toNat < Config.adcFullScale
  | .right => 5 * sample.toNat < Config.adcFullScale
  | .down => 4 * Config.adcFullScale < 5 * sample.toNat
  | .left => 4 * Config.adcFullScale < 5 * sample.toNat
  | .cross => false

/-- The axis a stimulus selects (rule R232): "vertical stimuli select one channel, horizontal select the
other, Cross selects none". -/
def axisOf : Stimulus → Option Axis
  | .up => some .vertical
  | .down => some .vertical
  | .left => some .horizontal
  | .right => some .horizontal
  | .cross => none

/-- `time(stimulus, count, ticks)` (rule R238), in the integers. -/
def timeFigure (st : Stimulus) (count : Word) (ticks : Half) : Int :=
  (count.toNat * Config.countWeight + ticks.toNat / Config.ticksPerMs : Nat) -
    (if st = .cross then (Config.crossCorr : Int) else 0)

/-- `d_k = (T div 10^k) mod 10` (rule R239). -/
def digit (t k : Nat) : Nat := t / 10 ^ k % 10

/-- The character code of a digit (rule R239; from general knowledge, G6). -/
def digitChar (d : Nat) : Byte := BitVec.ofNat 8 (0x30 + d)

/-- The five output characters: the digits from ten-thousands to units for 0 ≤ T ≤ 99999 (rule R239), and
free values otherwise (rule R240; log 18). -/
def timeChars (draw : Nat) (t : Int) : List Byte :=
  if 0 ≤ t ∧ t ≤ 99999 then [4, 3, 2, 1, 0].map (fun k => digitChar (digit t.toNat k))
  else [4, 3, 2, 1, 0].map (Config.freeDigitChar draw)

/-- What Reporting writes to the output channel (rule R239). Which call of rule R233 carries which piece is left
open: writeString for the prompt and the instruction string, one writeChar for each digit is DESIGN CHOICE (log
31). -/
def reportOutput (draw : Nat) (t : Int) : List OutEvent :=
  [.writeString Config.prompt] ++ (timeChars draw t).map OutEvent.writeChar ++
    [.writeString Config.instructionString]

/-- The pixels `render` draws: any geometry, kept inside the display extent (rule R235). -/
def renderPixels (cfg : Cfg) (st : Stimulus) : List (Half × Half) :=
  (Config.geometry cfg.width cfg.height st).filter
    (fun p => p.1.toNat ≤ cfg.maxX ∧ p.2.toNat ≤ cfg.maxY)

/-- The engine before its first operation. The values of variables not yet computed are DESIGN CHOICE
(log 19). -/
def Engine.boot : Engine where
  phase := .boot
  stimulus := .up
  todo := []
  axis := none
  start := 0#16
  stop := 0#16
  ticks := 0#16
  out := []

/-- One turn of the engine with the port free: what it does with RES, and the operation it issues, if
any (rule R236, in the order the rule shows; log 19). -/
def Engine.turn (cfg : Cfg) (res : Word) (draw : Nat) (e : Engine) : Engine × Option Instr :=
  match e.phase with
  | .boot => ({ e with phase := .idleClear }, some .init)
  | .idleClear => ({ e with phase := .idlePoll }, some (.clear Config.backgroundColor))
  | .idlePoll => ({ e with phase := .idleTest }, some (.flagrd .start))
  | .idleTest =>
    if res = 1#32 then ({ e with phase := .choose }, some (.flagclr .start))
    else (e, some (.flagrd .start))
  | .choose =>
    ({ e with
        phase := .render, stimulus := Config.freeStimulus draw,
        todo := renderPixels cfg (Config.freeStimulus draw) }, none)
  | .render =>
    match e.todo with
    | p :: ps => ({ e with todo := ps }, some (.setPixel p.1 p.2 Config.stimulusColor))
    | [] => ({ e with phase := .clearConfirm, axis := axisOf e.stimulus }, none)
  | .clearConfirm => ({ e with phase := .resetCount }, some (.flagclr .confirm))
  | .resetCount => ({ e with phase := .readStart }, some .cntrst)
  | .readStart => ({ e with phase := .latchStart }, some .tmrrd)
  | .latchStart => ({ e with phase := .evaluate, start := res.truncate 16 }, none)
  | .evaluate =>
    if e.stimulus = .cross then ({ e with phase := .crossTest }, some (.flagrd .confirm))
    else if sampleMatches e.stimulus (Config.freeSample draw) then
      ({ e with phase := .latchEnd }, some .tmrrd)
    else (e, none)
  | .crossTest =>
    if res = 1#32 then ({ e with phase := .latchEnd }, some .tmrrd)
    else (e, some (.flagrd .confirm))
  | .latchEnd =>
    ({ e with phase := .latchTicks, stop := res.truncate 16 },
      some (.elapsed e.start (res.truncate 16)))
  | .latchTicks => ({ e with phase := .report, ticks := res.truncate 16 }, some .cntrd)
  | .report =>
    ({ e with
        phase := .idleClear,
        out := e.out ++ reportOutput draw (timeFigure e.stimulus res e.ticks) }, none)

end Sys2Proof.Machine
end

