-- ==== Sys2Proof/Machine/Agents.lean ====
section
/-! DEFINITION. One turn of each agent (00_scope.md rule R10): HOST and CTRL fetch a word, decode it and run
`exec`; the others are the steps of the unit files. An agent that is blocked or not enabled has no step:
its turn leaves the state alone (log 1). -/

namespace Sys2Proof.Machine

/-- The host presents a descriptor: an instruction runs, an illegal descriptor is refused
(30_encoding.md rules R93, R105). -/
def State.present (s : State) (d : Descriptor) : Host.Outcome State Fault Refusal :=
  match decode d with
  | some i => exec i s
  | none => .refused (.illegalOp d)

/-- The host presents the descriptor of an instruction, if it has one. -/
def State.presentInstr (s : State) (i : Instr) : Host.Outcome State Fault Refusal :=
  match encode s.cfg i with
  | .descriptor d => s.present d
  | .frame _ => .next s

/-- A turn of the Game Engine (45_host_reference.md rule R236). -/
def State.engineTurn (s : State) (e : Engine) : Host.Outcome State Fault Refusal :=
  match (e.turn s.cfg s.res s.draws).2 with
  | none => .next { s with host := .engine (e.turn s.cfg s.res s.draws).1, draws := s.draws + 1 }
  | some i =>
    { s with
      host := .engine (e.turn s.cfg s.res s.draws).1, draws := s.draws + 1 : State }.presentInstr i

/-- A turn of HOST: blocked while SEQ.op is not NONE (rule R93); otherwise the next descriptor of its
list, or a turn of the engine. -/
def State.hostStep (s : State) : Host.Outcome State Fault Refusal :=
  if s.portFree then
    match s.host with
    | .queue [] => .next s
    | .queue (d :: ds) => { s with host := .queue ds : State }.present d
    | .engine e => s.engineTurn e
  else .next s

/-- CTRL receives one frame: the word names a link row, or it is a command the controller does not know
(46_controller_double.md rule R262). -/
def State.receiveFrame (s : State) (dc : Bit) (b : Byte) : Host.Outcome State Fault Refusal :=
  match decodeFrame s.cfg (frameBits dc b) with
  | some i => exec i s
  | none => .next { s with ctrl := (s.ctrl.track s.cfg (.frame dc b)).unknownCommand }

/-- The oldest event CTRL has not consumed passes to the consumed part of LINK. -/
def State.popEvent (s : State) (e : LinkEvent) (rest : List LinkEvent) : State :=
  { s with linkDone := s.linkDone ++ [e], linkTodo := rest }

/-- A turn of CTRL: it consumes the next event of LINK, if there is one (rule R260). -/
def State.ctrlStep (s : State) : Host.Outcome State Fault Refusal :=
  match s.linkTodo with
  | [] => .next s
  | .frame dc b :: rest => (s.popEvent (.frame dc b) rest).receiveFrame dc b
  | .rstAssert :: rest =>
    .next { s.popEvent .rstAssert rest with ctrl := s.ctrl.consume s.cfg .rstAssert }
  | .rstRelease :: rest =>
    .next { s.popEvent .rstRelease rest with ctrl := s.ctrl.consume s.cfg .rstRelease }
  | .dwell n :: rest =>
    .next { s.popEvent (.dwell n) rest with ctrl := s.ctrl.consume s.cfg (.dwell n) }

/-- One turn of an agent. -/
def State.agentStep (s : State) (a : Agent) : Host.Outcome State Fault Refusal :=
  match a with
  | .host => s.hostStep
  | .seq => .next s.seqStep
  | .tx => .next s.txStep
  | .clk => .next s.clkStep
  | .tick => .next s.tickStep
  | .db i => .next (s.dbStep i)
  | .pinFall i => .next (s.pinFallStep i)
  | .pinRise i => .next (s.pinRiseStep i)
  | .ctrl => s.ctrlStep

/-- Which agent moves next: the head of `sched`, or, when that is empty, a free choice (rule R10, log 1). -/
def State.nextAgent (s : State) : Agent :=
  match s.sched with
  | a :: _ => a
  | [] => Config.freeAgent s.draws

/-- The state after that choice has been used up. -/
def State.consumeChoice (s : State) : State :=
  match s.sched with
  | _ :: rest => { s with sched := rest }
  | [] => { s with draws := s.draws + 1 }

/-- One step of the machine: one turn of one agent. -/
def State.oneStep (s : State) : Host.Outcome State Fault Refusal :=
  s.consumeChoice.agentStep s.nextAgent

/-- Put a descriptor where the host presents it next: the port is free, it heads the host's list, and the
host moves next (log 8). -/
def State.placeDescriptor (s : State) (d : Descriptor) : State :=
  { s with
    seqOp := .none, seqPc := 0, sched := .host :: s.sched,
    host := match s.host with
      | .queue ds => .queue (d :: ds)
      | .engine _ => .queue [d] }

/-- Put a frame where CTRL consumes it next (log 8). -/
def State.placeFrame (s : State) (f : BitVec 9) : State :=
  { s with
    linkTodo := .frame (frameDc f) (frameByte f) :: s.linkTodo, sched := .ctrl :: s.sched }

/-- A row of spec/opcode_table.json, placed where it is fetched next: a link word for a row of at most 16
bits, a descriptor otherwise. -/
def State.placeWord (s : State) (nbits w : Nat) : State :=
  if nbits ≤ 16 then s.placeFrame (BitVec.ofNat 9 w) else s.placeDescriptor (BitVec.ofNat 64 w)

end Sys2Proof.Machine
end

