-- ==== Sys2Proof/Machine/Step.lean ====
section
/-! DEFINITION. The step of the machine, and where an instruction is fetched. -/

namespace Sys2Proof.Machine

/-- One step: one atomic step of one agent (00_scope.md rule R10). -/
def step (s : State) : Host.Outcome State Fault Refusal := s.oneStep

/-- `s` with the word of an opcode-table row where the next step fetches it (log 8). -/
def State.withFetchWord (s : State) (nbits w : Nat) : State := s.placeWord nbits w

end Sys2Proof.Machine
end

