-- ==== Sys2Proof/Safety.lean ====
section
/-! DEFINITION. What claims are stated in: final and stuck states, the display side's trace with the frame in
flight, what of the controller a claim may look at, and the invariants of the machine. -/

namespace Sys2Proof

/-- (x, y) is a visible pixel of the extent (20_memory.md rule R71). -/
abbrev Cfg.InView (cfg : Cfg) (x y : Half) : Prop := x.toNat ≤ cfg.maxX ∧ y.toNat ≤ cfg.maxY

end Sys2Proof

namespace Sys2Proof.Machine

/-- A FINAL state (70_reset_and_hazards.md rule R349): the host has no more descriptors to present, SEQ is
idle, nothing is in flight, both settles are over. A refusal ends the run before (rule R292); an engine
never ends. -/
abbrev State.Final (s : State) : Prop :=
  s.host = .queue [] ∧ s.seqOp = .none ∧ s.txbusy = 0#1 ∧
    s.db.get .confirm = .idle ∧ s.db.get .start = .idle

/-- SEQ waits on the transmit unit: the state that is stuck (TxHang) if TX never steps
(40_serial_channel.md rule R133, 60_exceptions.md rule R292). -/
abbrev State.WaitsOnTx (s : State) : Prop := s.seqOp ≠ .none ∧ s.txbusy = 1#1

/-- An infinite run of the machine. -/
abbrev IsRun (r : Nat → State) : Prop := ∀ n, step (r n) = .next (r (n + 1))

/-- Weak fairness of an agent along a run: if from some point on it stays enabled, it moves at that point or
later. -/
abbrev WeaklyFair (a : Agent) (enabled : State → Prop) (r : Nat → State) : Prop :=
  ∀ n, (∀ m, n ≤ m → enabled (r m)) → ∃ m, n ≤ m ∧ (r m).nextAgent = a

/-- A healthy transmit unit: "if TXBUSY = 1 stays true, TX eventually steps" (40_serial_channel.md rule R133). A
faulty one is the same machine without this assumption. -/
abbrev TxHealthy (r : Nat → State) : Prop := WeaklyFair .tx (fun s => s.txbusy = 1#1) r

/-- The fairness of SEQ (20_memory.md rule R78: "fairness of the agents"): it is enabled while it has a
micro-event to perform (10_state.md rule R27). -/
abbrev SeqFair (r : Nat → State) : Prop := WeaklyFair .seq (fun s => s.nextMicro ≠ none) r

/-- The frame in flight: loaded and not yet in LINK (10_state.md rule R33). -/
def State.inFlight (s : State) : List LinkEvent :=
  if s.txFree then [] else [.frame s.dc s.txbuf]

/-- LINK and the frame in flight: everything SEQ has sent. -/
def State.sent (s : State) : List LinkEvent := s.link ++ s.inFlight

/-- The three marks of one controller state are those of another. -/
abbrev Ctrl.SameMarks (c d : Ctrl) : Prop :=
  c.corrupt = d.corrupt ∧ c.undef = d.undef ∧ c.unmodelled = d.unmodelled

/-- SEQ's position: 0 when idle, inside the list of the operation in progress otherwise (10_state.md
rule R27). -/
abbrev State.SeqInv (s : State) : Prop :=
  (s.seqOp = .none → s.seqPc = 0) ∧ (s.seqOp ≠ .none → s.seqPc < s.ucode.length)

/-- RST is asserted exactly between the first and the third micro-event of INIT (41_display_driver.md
rule R157 lines 1 to 3). -/
abbrev State.RstInv (s : State) : Prop :=
  s.rst = if s.seqOp = .init ∧ (s.seqPc = 1 ∨ s.seqPc = 2) then 1#1 else 0#1

/-- The cursor of a running memory write lies in the window (46_controller_double.md rules R262, R266). -/
abbrev Ctrl.CursorInv (c : Ctrl) : Prop :=
  ∀ col row, c.cmd = some .ramwr → c.cur = .at col row →
    ∃ xs xe ys ye, c.xs = some xs ∧ c.xe = some xe ∧ c.ys = some ys ∧ c.ye = some ye ∧
      xs.toNat ≤ col.toNat ∧ col.toNat ≤ xe.toNat ∧ ys.toNat ≤ row.toNat ∧ row.toNat ≤ ye.toNat

/-- Frame memory is in canonical form and holds only cells of the full-extent window (rule R260). -/
abbrev Ctrl.GramInv (cfg : Cfg) (c : Ctrl) : Prop :=
  c.gram.wf ∧ ∀ p ∈ c.gram, ∃ col row, inExtent cfg col row = true ∧ p.1 = gramKey col row

/-- The controller's invariant: its place in `E`, its cursor, its half pixel, its frame memory. -/
abbrev Ctrl.Inv (cfg : Cfg) (c : Ctrl) : Prop :=
  c.k ≤ (expected cfg).length ∧ c.CursorInv ∧ (c.half ≠ none → c.cmd = some .ramwr) ∧ c.GramInv cfg

/-- The machine's invariant: every step keeps it. -/
abbrev State.Inv (s : State) : Prop := s.SeqInv ∧ s.RstInv ∧ s.ctrl.Inv s.cfg

/-- The state without the controller: all the block, the host and LINK. -/
def State.withoutCtrl (s : State) : State := { s with ctrl := Ctrl.powerOn }

/-- Apply a function to the next state, if there is one. -/
def mapNext (f : State → State) : Host.Outcome State Fault Refusal → Host.Outcome State Fault Refusal
  | .next s => .next (f s)
  | .fault r => .fault r
  | .refused r => .refused r

end Sys2Proof.Machine
end

