-- ==== Sys2Proof/Certificates/Slice0/Obligations.lean ====
section
/-! DEFINITION. The statements for the provers. They quantify over every state, so over every configuration,
every value of what reset leaves unspecified, and every schedule of the agents. -/

open Sys2Proof Sys2Proof.Machine

/-! Encoding. -/

/-- 30_encoding.md rules R91 to R101: no bit of a word is dropped. Under distinct command bytes
(00_scope.md rule R6) the word of every instruction, with every operand, decodes to that instruction. -/
def Obligations.DecodeOfEncodeIsIdentity : Prop :=
  ∀ (cfg : Cfg) (i : Instr), cfg.CommandsDistinct → decodeEncoded cfg (encode cfg i) = some i

/-- The other direction: a word that decodes is the word of its instruction, so no two words share a
meaning and no bit of a decoded word is ignored (rules R92, R94, R100). -/
def Obligations.EncodeOfDecodeIsIdentity : Prop :=
  ∀ (cfg : Cfg) (w : Encoded) (i : Instr), decodeEncoded cfg w = some i → encode cfg i = w

/-- Rules R94 and R105: the decoder, written from the fields of R91 and R92, accepts a descriptor iff it
selects a row of the table of `match` and `mask`, and at most one row is selected. -/
def Obligations.LegalIffSelectsOneRow : Prop :=
  ∀ d : Descriptor,
    (decode d ≠ none ↔ Descriptor.WellFormed d) ∧
    ∀ r ∈ descriptorRows, ∀ r' ∈ descriptorRows,
      Descriptor.Selects d r → Descriptor.Selects d r' → r = r'

/-- A few words written out from the spec's own examples (95_test_vectors.md section 2.1, the table of
30_encoding.md rule R101). -/
def Obligations.SpecWordsDecode : Prop :=
  decode 0x01010000000000F8#64 = some (.send 0xF8#8 1#1) ∧
  decode 0x040000050007F800#64 = some (.setPixel 5#16 7#16 0xF800#16) ∧
  decode 0x1100EA6003E80000#64 = some (.elapsed 60000#16 1000#16) ∧
  decode 0x2201000000000000#64 = some (.flagrc .start) ∧
  decodeFrame Cfg.default 0x0B1#9 = some .linkPwctr ∧
  decodeFrame Cfg.default 0x1F8#9 = some (.linkData 0xF8#8)

/-! The host operations: results, completion and frame. -/

/-- 30_encoding.md rule R93 with rules R130, R157, R158, R159: with the port free, the issue step of a
display operation latches its operands and starts SEQ, and changes nothing else. -/
def Obligations.DisplayOperationsIssue : Prop :=
  ∀ s : State, s.seqOp = .none →
    (∀ b dc, exec (.send b dc) s = .next { s with
      opx := 0#16, opy := 0#16, opv := b.zeroExtend 16, opm := dc, seqOp := .send, seqPc := 0 }) ∧
    exec .init s = .next { s with
      opx := 0#16, opy := 0#16, opv := 0#16, opm := 0#1, seqOp := .init, seqPc := 0 } ∧
    (∀ c, exec (.clear c) s = .next { s with
      opx := 0#16, opy := 0#16, opv := c, opm := 0#1, seqOp := .clear, seqPc := 0 }) ∧
    (∀ x y c, exec (.setPixel x y c) s = .next { s with
      opx := x, opy := y, opv := c, opm := 0#1, seqOp := .setPixel, seqPc := 0 })

/-- 42_timer.md rules R182, R183, R187: each completes in one step, whatever the transmit unit does, and
writes RES and nothing else. -/
def Obligations.TimerOperationsComplete : Prop :=
  ∀ s : State, s.seqOp = .none →
    exec .tmrrd s = .next { s with res := BitVec.ofNat 32 s.cnt.toNat } ∧
    (∀ start stop : Half, exec (.elapsed start stop) s = .next { s with
      res := BitVec.ofNat 32 ((65536 + stop.toNat - start.toNat) % 65536) }) ∧
    exec .cntrd s = .next { s with res := s.count }

/-- 42_timer.md rule R186: the encoding of CNTRST, and its two writes in one step; CNT and every flag are not
affected. -/
def Obligations.CntrstClearsCount : Prop :=
  decode 0x1200000000000000#64 = some .cntrst ∧
  ∀ s : State, s.seqOp = .none → exec .cntrst s = .next { s with count := 0#32, res := 0#32 }

/-- 43_input_sampler.md rules R206, R207, R208: the encodings; read by level, clear, and both in one step. -/
def Obligations.FlagOperationsComplete : Prop :=
  (decode 0x2000000000000000#64 = some (.flagrd .confirm) ∧
    decode 0x2001000000000000#64 = some (.flagrd .start) ∧
    decode 0x2100000000000000#64 = some (.flagclr .confirm) ∧
    decode 0x2101000000000000#64 = some (.flagclr .start) ∧
    decode 0x2200000000000000#64 = some (.flagrc .confirm) ∧
    decode 0x2201000000000000#64 = some (.flagrc .start)) ∧
  ∀ s : State, s.seqOp = .none → ∀ i : Button,
    exec (.flagrd i) s = .next { s with res := BitVec.ofNat 32 (s.flag.get i).toNat } ∧
    exec (.flagclr i) s = .next { s with flag := s.flag.set 0#1 i, res := 0#32 } ∧
    exec (.flagrc i) s = .next { s with
      flag := s.flag.set 0#1 i, res := BitVec.ofNat 32 (s.flag.get i).toNat }

/-- 30_encoding.md rule R93: while SEQ.op is not NONE the host has no issue step. That an operation of the
closed port then changes nothing, and that a turn of HOST only passes, is the model's form of it (logs 1, 23). -/
def Obligations.ClosedPortChangesNothing : Prop :=
  (∀ (d : Descriptor) (i : Instr) (s : State), decode d = some i → s.seqOp ≠ .none → exec i s = .next s) ∧
  ∀ (s : State) (rest : List Agent), s.sched = .host :: rest → s.seqOp ≠ .none →
    step s = .next { s with sched := rest }

/-- 60_exceptions.md rules R290, R293: no instruction faults or is refused; a step never faults, and is
refused only for an illegal descriptor presented at a free port. -/
def Obligations.OnlyIllegalDescriptorsAreRefused : Prop :=
  (∀ (i : Instr) (s : State), ∃ t, exec i s = .next t) ∧
  ∀ s : State,
    (∀ f, step s ≠ .fault f) ∧
    ∀ r, step s = .refused r → ∃ d ds, s.host = .queue (d :: ds) ∧ s.seqOp = .none ∧
      r = .illegalOp d ∧ ¬ Descriptor.WellFormed d

/-- 10_state.md rule R23, 20_memory.md rules R60, R61, R69: an operation the port accepts puts nothing on
LINK, changes no byte of frame memory and no cell of the controller, no pin, no debounce state, not CNT, not
the transmit unit and not the reset line. -/
def Obligations.HostOperationsFrame : Prop :=
  ∀ (d : Descriptor) (i : Instr) (s t : State), decode d = some i → exec i s = .next t →
    (∀ a, t.ctrl.gram.read a = s.ctrl.gram.read a) ∧ t.ctrl = s.ctrl ∧ t.link = s.link ∧
    t.cfg = s.cfg ∧ t.txbuf = s.txbuf ∧ t.dc = s.dc ∧ t.txbusy = s.txbusy ∧ t.rst = s.rst ∧
    t.cnt = s.cnt ∧ t.pin = s.pin ∧ t.db = s.db ∧ t.host = s.host ∧ t.sched = s.sched ∧
    t.draws = s.draws ∧
    (i ≠ .cntrst → t.count = s.count) ∧
    (∀ j, i ≠ .flagclr j → i ≠ .flagrc j → t.flag.get j = s.flag.get j)

/-! A step runs the decoded instruction. -/

/-- HOST's turn with the port free and a descriptor to present: the descriptor leaves the host's list and
the instruction it decodes to is run (30_encoding.md rule R93). -/
def Obligations.StepRunsPresentedDescriptor : Prop :=
  ∀ (s : State) (rest : List Agent) (d : Descriptor) (ds : List Descriptor) (i : Instr),
    s.sched = .host :: rest → s.seqOp = .none → s.host = .queue (d :: ds) → decode d = some i →
    step s = exec i { s with sched := rest, host := .queue ds }

/-- 30_encoding.md rule R105: a presented descriptor that selects no row is refused as IllegalOp, with the
descriptor recorded. -/
def Obligations.IllegalDescriptorIsRefused : Prop :=
  ∀ (s : State) (rest : List Agent) (d : Descriptor) (ds : List Descriptor),
    s.sched = .host :: rest → s.seqOp = .none → s.host = .queue (d :: ds) →
    ¬ Descriptor.WellFormed d → step s = .refused (.illegalOp d)

/-- CTRL's turn with a frame to consume: the frame passes to the consumed part of LINK and the row it
decodes to is run (46_controller_double.md rule R260). The split of LINK is the model's (log 10). -/
def Obligations.StepRunsReceivedFrame : Prop :=
  ∀ (s : State) (rest : List Agent) (dc : Bit) (b : Byte) (es : List LinkEvent) (i : Instr),
    s.sched = .ctrl :: rest → s.linkTodo = .frame dc b :: es →
    decodeFrame s.cfg (frameBits dc b) = some i →
    step s = exec i { s with
      sched := rest, linkDone := s.linkDone ++ [.frame dc b], linkTodo := es }

/-- CTRL's turn as a whole (rule R260): it consumes exactly the next event of LINK, in order, and its state
becomes what the reference model makes of that event; LINK as a whole is unchanged. The split of LINK is the
model's (log 10). -/
def Obligations.ControllerConsumesLinkInOrder : Prop :=
  ∀ (s : State) (rest : List Agent) (e : LinkEvent) (es : List LinkEvent),
    s.sched = .ctrl :: rest → s.linkTodo = e :: es →
    ∃ t, step s = .next t ∧ t.link = s.link ∧ t = { s with
      sched := rest, linkDone := s.linkDone ++ [e], linkTodo := es,
      ctrl := s.ctrl.consume s.cfg e }

/-! The agents of the block. -/

/-- 40_serial_channel.md rule R131: an enabled send step writes DC, TXBUF and TXBUSY and moves SEQ.pc on, or
completes the operation if it was the last (10_state.md rule R27), and writes nothing else. -/
def Obligations.SendStepLoadsTransmitRegister : Prop :=
  ∀ (s : State) (rest : List Agent) (dc : Bit) (b : Byte),
    s.sched = .seq :: rest → s.ucode[s.seqPc]? = some (.sendf dc b) → s.txbusy = 0#1 →
    (s.seqPc + 1 < s.ucode.length → step s = .next { s with
      sched := rest, dc := dc, txbuf := b, txbusy := 1#1, seqPc := s.seqPc + 1 }) ∧
    (s.seqPc + 1 = s.ucode.length → step s = .next { s with
      sched := rest, dc := dc, txbuf := b, txbusy := 1#1,
      seqOp := .none, seqPc := 0, res := 0#32 })

/-- 41_display_driver.md rule R151: the reset-line and dwell steps, enabled at TXBUSY = 0. They are never
the last of an operation's list, whose last element is a frame. -/
def Obligations.ResetLineAndDwellSteps : Prop :=
  ∀ (s : State) (rest : List Agent), s.sched = .seq :: rest → s.txbusy = 0#1 →
    (s.ucode[s.seqPc]? = some .rsta → step s = .next { s with
      sched := rest, rst := 1#1, linkTodo := s.linkTodo ++ [.rstAssert], seqPc := s.seqPc + 1 }) ∧
    (s.ucode[s.seqPc]? = some .rstr → step s = .next { s with
      sched := rest, rst := 0#1, linkTodo := s.linkTodo ++ [.rstRelease], seqPc := s.seqPc + 1 }) ∧
    (∀ n, s.ucode[s.seqPc]? = some (.dwell n) → step s = .next { s with
      sched := rest, linkTodo := s.linkTodo ++ [.dwell n], seqPc := s.seqPc + 1 })

/-- What an agent that is not enabled does at its turn: nothing but use up the turn. The rules say when an
agent is enabled (R131, R132, R151, R201, R203); that its turn then passes is the model's choice (log 1). -/
def Obligations.DisabledAgentsPass : Prop :=
  ∀ (s : State) (a : Agent) (rest : List Agent), s.sched = a :: rest →
    (a = .seq ∧ (s.txbusy = 1#1 ∨ s.seqOp = .none) ∨
      a = .tx ∧ s.txbusy = 0#1 ∨
      (∃ i, a = .db i ∧ s.db.get i = .idle) ∨
      (∃ i, a = .pinFall i ∧ s.pin.get i = 0#1) ∨
      (∃ i, a = .pinRise i ∧ s.pin.get i = 1#1) ∨
      a = .ctrl ∧ s.linkTodo = [] ∨
      a = .host ∧ (s.seqOp ≠ .none ∨ s.host = .queue [])) →
    step s = .next { s with sched := rest }

/-- 40_serial_channel.md rule R132: the TX step. -/
def Obligations.TransmitStepEmitsFrame : Prop :=
  ∀ (s : State) (rest : List Agent), s.sched = .tx :: rest → s.txbusy = 1#1 →
    step s = .next { s with
      sched := rest, linkTodo := s.linkTodo ++ [.frame s.dc s.txbuf], txbusy := 0#1 }

/-- 42_timer.md rules R180 and R188: the CLK step, always enabled, and the TICK step. -/
def Obligations.CountersStep : Prop :=
  ∀ (s : State) (rest : List Agent),
    (s.sched = .clk :: rest → step s = .next { s with
      sched := rest, cnt := BitVec.ofNat 16 ((s.cnt.toNat + 1) % 65536) }) ∧
    (s.sched = .tick :: rest → step s = .next { s with
      sched := rest, count := BitVec.ofNat 32 ((s.count.toNat + 1) % 4294967296) })

/-- 43_input_sampler.md rules R201, R204: a fall is a press; it starts a settle only from IDLE, and one during a
settle is not remembered (log 17); a rise starts nothing. -/
def Obligations.PinStepsStartSettle : Prop :=
  ∀ (s : State) (rest : List Agent) (i : Button),
    (s.sched = .pinFall i :: rest → s.pin.get i = 1#1 →
      (s.db.get i = .idle → step s = .next { s with
        sched := rest, pin := s.pin.set 0#1 i, db := s.db.set .settle i }) ∧
      (s.db.get i = .settle → step s = .next { s with
        sched := rest, pin := s.pin.set 0#1 i })) ∧
    (s.sched = .pinRise i :: rest → s.pin.get i = 0#1 →
      step s = .next { s with sched := rest, pin := s.pin.set 1#1 i })

/-- 43_input_sampler.md rule R203: the relook step, and that it is the only step anywhere that sets a flag. -/
def Obligations.RelookLatchesIfStillPressed : Prop :=
  (∀ (s : State) (rest : List Agent) (i : Button), s.sched = .db i :: rest → s.db.get i = .settle →
    (s.pin.get i = 0#1 → step s = .next { s with
      sched := rest, flag := s.flag.set 1#1 i, db := s.db.set .idle i }) ∧
    (s.pin.get i = 1#1 → step s = .next { s with
      sched := rest, db := s.db.set .idle i })) ∧
  ∀ (s t : State) (i : Button), step s = .next t → s.flag.get i = 0#1 → t.flag.get i = 1#1 →
    s.nextAgent = .db i ∧ s.db.get i = .settle ∧ s.pin.get i = 0#1

/-! The micro-event lists. -/

/-- 41_display_driver.md rule R159 with rules R152 to R154: SETPIXEL is these 13 frames, the offsets applied
with 16-bit wrap to both window ends, every 16-bit value high byte first. -/
def Obligations.SetPixelListIsThirteenFrames : Prop :=
  ∀ (cfg : Cfg) (x y v : Half) (m : Bit),
    let ax := BitVec.ofNat 16 (x.toNat + 2)
    let ay := BitVec.ofNat 16 (y.toNat + 1)
    let hi := fun w : Half => BitVec.ofNat 8 (w.toNat / 256)
    let lo := fun w : Half => BitVec.ofNat 8 (w.toNat % 256)
    ucode cfg .setPixel x y v m =
      [.sendf 0#1 cfg.cmdCaset, .sendf 1#1 (hi ax), .sendf 1#1 (lo ax), .sendf 1#1 (hi ax),
        .sendf 1#1 (lo ax), .sendf 0#1 cfg.cmdRaset, .sendf 1#1 (hi ay), .sendf 1#1 (lo ay),
        .sendf 1#1 (hi ay), .sendf 1#1 (lo ay), .sendf 0#1 cfg.cmdRamwr, .sendf 1#1 (hi v),
        .sendf 1#1 (lo v)]

/-- 41_display_driver.md rules R155, R156 with R158: the list of CLEAR is the full-extent window once, the
memory-write command once, then the two bytes of the colour WIDTH × HEIGHT times, and nothing else. The order of the
two window commands and the four bytes of each are R152 and 30_encoding.md R102, which the spec marks as its decision
D5 and as general knowledge. -/
def Obligations.FillListIsOneWindowThenPixels : Prop :=
  ∀ (cfg : Cfg) (x y v : Half) (m : Bit),
    let ex := BitVec.ofNat 16 (cfg.maxX + 2)
    let ey := BitVec.ofNat 16 (cfg.maxY + 1)
    let hi := fun w : Half => BitVec.ofNat 8 (w.toNat / 256)
    let lo := fun w : Half => BitVec.ofNat 8 (w.toNat % 256)
    let l := ucode cfg .clear x y v m
    l.length = 11 + 2 * cfg.width * cfg.height ∧
    l.take 11 =
      [.sendf 0#1 cfg.cmdCaset, .sendf 1#1 0#8, .sendf 1#1 2#8, .sendf 1#1 (hi ex), .sendf 1#1 (lo ex),
        .sendf 0#1 cfg.cmdRaset, .sendf 1#1 0#8, .sendf 1#1 1#8, .sendf 1#1 (hi ey), .sendf 1#1 (lo ey),
        .sendf 0#1 cfg.cmdRamwr] ∧
    ∀ n, n < cfg.width * cfg.height →
      l[11 + 2 * n]? = some (.sendf 1#1 (hi v)) ∧ l[12 + 2 * n]? = some (.sendf 1#1 (lo v))

/-- 20_memory.md rule R67, 10_state.md rule R27: the number of micro-events of each operation; 40_serial_channel.md
rule R130: the one frame of SEND, its byte under its dc; 41_display_driver.md rule R157: the list of INIT, lines 1 to
13 with their four waits, then the fill, then the display switched on. -/
def Obligations.MicroEventCounts : Prop :=
  ∀ (cfg : Cfg) (x y v : Half) (m : Bit),
    (ucode cfg .send x y v m).length = 1 ∧
    (ucode cfg .setPixel x y v m).length = 13 ∧
    (ucode cfg .clear x y v m).length = 11 + 2 * cfg.width * cfg.height ∧
    (ucode cfg .init x y v m).length = 25 + cfg.pGamset.length + cfg.pPwctr.length + cfg.pStba.length +
      cfg.pColmod.length + cfg.pMadctl.length + 2 * cfg.width * cfg.height ∧
    ucode cfg .send x y v m = [.sendf m (BitVec.ofNat 8 (v.toNat % 256))] ∧
    ucode cfg .init x y v m =
      [.rsta, .dwell 50, .rstr, .dwell 120, .sendf 0#1 cfg.cmdSlpout, .dwell 120] ++
      (.sendf 0#1 cfg.cmdGamset :: cfg.pGamset.map (Micro.sendf 1#1)) ++
      (.sendf 0#1 cfg.cmdPwctr :: cfg.pPwctr.map (Micro.sendf 1#1)) ++
      (.sendf 0#1 cfg.cmdStba :: cfg.pStba.map (Micro.sendf 1#1)) ++
      (.sendf 0#1 cfg.cmdColmod :: cfg.pColmod.map (Micro.sendf 1#1)) ++ [.dwell 10] ++
      (.sendf 0#1 cfg.cmdMadctl :: cfg.pMadctl.map (Micro.sendf 1#1)) ++
      [.sendf 0#1 cfg.cmdNoron] ++ ucode cfg .clear x y cfg.initFillColor m ++ [.sendf 0#1 cfg.cmdDispon]

/-! Whole-machine rules. -/

/-- After power-on reset (10_state.md rules R40 to R42, 70_reset_and_hazards.md rule R331, 46_controller_double.md
rule R260), whatever the configuration and whatever the unspecified elements hold. That the recorded parameters are
empty is the model's choice (log 32). -/
def Obligations.PowerOnState : Prop :=
  ∀ (cfg : Cfg) (u : Unspecified),
    let s := State.powerOn cfg u
    s.txbusy = 0#1 ∧ s.rst = 0#1 ∧ s.seqOp = .none ∧ s.seqPc = 0 ∧ s.count = 0#32 ∧
    (∀ i, s.db.get i = .idle ∧ s.flag.get i = 0#1) ∧ s.link = [] ∧
    s.ctrl.k = 0 ∧ s.ctrl.cmd = none ∧ s.ctrl.pidx = 0 ∧
    s.ctrl.xs = none ∧ s.ctrl.xe = none ∧ s.ctrl.ys = none ∧ s.ctrl.ye = none ∧
    s.ctrl.cur = .none ∧ s.ctrl.half = none ∧ s.ctrl.on = false ∧
    s.ctrl.corrupt = false ∧ s.ctrl.undef = false ∧ s.ctrl.unmodelled = false ∧
    (∀ a, s.ctrl.gram.read a = none) ∧
    s.ctrl.recorded = { gamset := [], pwctr := [], stba := [], colmod := [], madctl := [] } ∧
    s.cfg = cfg ∧ s.cnt = u.cnt ∧ s.pin = u.pin ∧ s.txbuf = u.txbuf ∧ s.dc = u.dc ∧ s.res = u.res ∧
    s.opx = u.opx ∧ s.opy = u.opy ∧ s.opv = u.opv ∧ s.opm = u.opm ∧
    s.Inv

/-- Every step keeps the machine's invariant: SEQ's position stays inside the list of the operation in
progress, RST is asserted exactly between lines 1 and 3 of INIT, the controller's cursor stays in the window
and frame memory stays in canonical form and inside the full-extent window. -/
def Obligations.StepKeepsInvariant : Prop :=
  ∀ s t : State, s.Inv → step s = .next t → t.Inv

/-- 10_state.md rule R28, 43_input_sampler.md rules R205, R209: a set flag stays set through every step but a
turn of HOST, and what HOST runs then is a FLAGCLR or FLAGRC of that very flag. -/
def Obligations.OnlyHostClearsFlag : Prop :=
  (∀ (s t : State) (i : Button), step s = .next t → s.flag.get i = 1#1 → t.flag.get i = 0#1 →
    s.nextAgent = .host) ∧
  ∀ (s t : State) (j : Instr) (i : Button), exec j s = .next t → t.flag.get i ≠ s.flag.get i →
    (j = .flagclr i ∨ j = .flagrc i) ∧ t.flag.get i = 0#1

/-- 60_exceptions.md rule R301, the whole table: who may write what. Each shared element changes only in a turn of
an agent that has write access to it, a button's cells only in a turn for that button. -/
def Obligations.WritersOfEachElement : Prop :=
  ∀ s t : State, step s = .next t →
    (∀ i, t.flag.get i ≠ s.flag.get i →
      s.nextAgent = .db i ∧ t.flag.get i = 1#1 ∨ s.nextAgent = .host ∧ t.flag.get i = 0#1) ∧
    (t.count ≠ s.count → s.nextAgent = .tick ∨ s.nextAgent = .host ∧ t.count = 0#32) ∧
    (t.cnt ≠ s.cnt → s.nextAgent = .clk) ∧
    (t.dc ≠ s.dc ∨ t.txbuf ≠ s.txbuf → s.nextAgent = .seq ∧ s.txbusy = 0#1) ∧
    (t.txbusy ≠ s.txbusy →
      s.nextAgent = .seq ∧ t.txbusy = 1#1 ∨ s.nextAgent = .tx ∧ t.txbusy = 0#1) ∧
    (t.rst ≠ s.rst → s.nextAgent = .seq ∧ s.seqOp = .init) ∧
    (∀ i, t.db.get i ≠ s.db.get i → s.nextAgent = .db i ∨ s.nextAgent = .pinFall i) ∧
    (∀ i, t.pin.get i ≠ s.pin.get i → s.nextAgent = .pinFall i ∨ s.nextAgent = .pinRise i) ∧
    (t.ctrl ≠ s.ctrl → s.nextAgent = .ctrl) ∧
    t.cfg = s.cfg

/-- 70_reset_and_hazards.md rule R342, 40_serial_channel.md rule R132: DC and TXBUF do not change while a
frame is in flight, so the frame TX emits is the one the send step loaded. -/
def Obligations.FrameInFlightIsStable : Prop :=
  ∀ s t : State, s.txbusy = 1#1 → step s = .next t →
    t.dc = s.dc ∧ t.txbuf = s.txbuf ∧
    (t.txbusy = 0#1 → t.linkDone = s.linkDone ∧ t.linkTodo = s.linkTodo ++ [.frame s.dc s.txbuf])

/-- 20_memory.md rule R73, 41_display_driver.md rule R150, 40_serial_channel.md rule R134: what SEQ has sent
(LINK and the frame in flight) grows only by the micro-event at SEQ.pc, one at a time, in a turn of SEQ. -/
def Obligations.SentGrowsByMicroEvents : Prop :=
  ∀ s t : State, step s = .next t →
    t.sent = s.sent ∨
    (s.nextAgent = .seq ∧ s.txbusy = 0#1 ∧
      ∃ m, s.ucode[s.seqPc]? = some m ∧ t.sent = s.sent ++ [m.event])

/-- 41_display_driver.md rule R150, 20_memory.md rules R68, R76: if an operation in progress has so far sent
exactly the first SEQ.pc events of its list after `base`, then so it has after any step of any agent, with
the same operation and operands; and when it completes it has sent exactly its whole list, with SEQ.pc and
RES zero. -/
def Obligations.OperationSendsExactlyItsList : Prop :=
  ∀ (s t : State) (base : List LinkEvent), s.SeqInv → s.seqOp ≠ .none →
    s.sent = base ++ (s.ucode.take s.seqPc).map Micro.event → step s = .next t →
    (t.seqOp ≠ .none → t.seqOp = s.seqOp ∧ t.ucode = s.ucode ∧
      t.sent = base ++ (t.ucode.take t.seqPc).map Micro.event) ∧
    (t.seqOp = .none → t.seqPc = 0 ∧ t.res = 0#32 ∧ t.sent = base ++ s.ucode.map Micro.event)

/-- 40_serial_channel.md rule R133: while SEQ waits and TX does not step, nothing of the display side
moves, whatever the other agents do: the operation does not complete and the port stays closed. -/
def Obligations.NoProgressWithoutTransmit : Prop :=
  ∀ s t : State, s.WaitsOnTx → s.nextAgent ≠ .tx → step s = .next t →
    t.WaitsOnTx ∧ t.seqOp = s.seqOp ∧ t.seqPc = s.seqPc ∧ t.res = s.res ∧ t.link = s.link ∧
    t.host = s.host

/-- 40_serial_channel.md rules R133, R135: a healthy transmit unit. If TX and SEQ alternate, the operation in
progress completes after as many pairs of turns as micro-events are left, having sent the rest of its
list; its last frame may still be in flight, and the counters, flags and the controller are untouched. And on every
infinite run, whatever the other agents do in between: with a transmit unit that is healthy in the sense of rule
R133, weakly fair, TXBUSY = 1 does not last for ever, and with SEQ weakly fair too (20_memory.md rule R78) the
operation in progress completes. -/
def Obligations.OperationCompletesIfTransmitRuns : Prop :=
  (∀ s : State, s.SeqInv → s.seqOp ≠ .none →
    ∃ t, Sys2Proof.core.run (2 * (s.ucode.length - s.seqPc))
        { s with sched := (List.replicate (s.ucode.length - s.seqPc) [Agent.tx, Agent.seq]).flatten } =
          .next t ∧
      t.seqOp = .none ∧ t.seqPc = 0 ∧ t.res = 0#32 ∧ t.sched = [] ∧
      t.sent = s.sent ++ (s.ucode.drop s.seqPc).map Micro.event ∧
      t.cnt = s.cnt ∧ t.count = s.count ∧ t.flag = s.flag ∧ t.db = s.db ∧ t.ctrl = s.ctrl) ∧
  ∀ r : Nat → State, IsRun r → TxHealthy r →
    (∀ n, (r n).txbusy = 1#1 → ∃ m, n ≤ m ∧ (r m).txbusy = 0#1) ∧
    (SeqFair r → ∀ n, (r n).SeqInv → (r n).seqOp ≠ .none → ∃ m, n ≤ m ∧ (r m).seqOp = .none)

/-- 20_memory.md rule R61: the link is transmit-only. Nothing outside the controller depends on the
controller: with any other controller state in its place, the step leaves the rest of the machine the
same. -/
def Obligations.BlockNeverReadsController : Prop :=
  ∀ (s : State) (c : Ctrl),
    mapNext State.withoutCtrl (step { s with ctrl := c }) = mapNext State.withoutCtrl (step s)

/-- 20_memory.md rules R75, R76, 60_exceptions.md rule R297: two steps at the same instant give the same state in
either order when they write disjoint state. TICK and CLK commute with each other and with TX and SEQ; the debounce
step and both pin steps of a button commute with TICK, CLK, TX and SEQ; and the steps of one button commute with
those of the other. Not claimed: TX with SEQ, which share TXBUSY, and two steps of one button, which share its pin
and debounce state. -/
def Obligations.EventAgentsCommute : Prop :=
  let buttonSteps : Button → List (State → State) := fun i =>
    [fun s => s.dbStep i, fun s => s.pinFallStep i, fun s => s.pinRiseStep i]
  ∀ s : State,
    s.tickStep.clkStep = s.clkStep.tickStep ∧
    s.txStep.tickStep = s.tickStep.txStep ∧
    s.txStep.clkStep = s.clkStep.txStep ∧
    s.seqStep.tickStep = s.tickStep.seqStep ∧
    s.seqStep.clkStep = s.clkStep.seqStep ∧
    ∀ i, ∀ f ∈ buttonSteps i,
      f s.tickStep = (f s).tickStep ∧ f s.clkStep = (f s).clkStep ∧
      f s.txStep = (f s).txStep ∧ f s.seqStep = (f s).seqStep ∧
      ∀ j, j ≠ i → ∀ g ∈ buttonSteps j, g (f s) = f (g s)

/-- 43_input_sampler.md rule R210: the first fall starts the settle; every later fall and rise inside it, in
any number, changes only the pin; one relook happens, and sets the flag iff the pin is low then; the other
button is untouched. That a later fall starts nothing and leaves no second relook pending is the spec's own choice
(rule R204, D20, U8; log 17). -/
def Obligations.BounceLatchesAtMostOnce : Prop :=
  ∀ (s : State) (i : Button) (es : List Agent), s.db.get i = .idle → s.pin.get i = 1#1 →
    (∀ a ∈ es, a = .pinFall i ∨ a = .pinRise i) →
    ∃ u t, Sys2Proof.core.run (es.length + 1) { s with sched := .pinFall i :: (es ++ [.db i]) } = .next u ∧
      step u = .next t ∧ u.flag = s.flag ∧ u.db = s.db.set .settle i ∧
      t.flag = (if u.pin.get i = 0#1 then s.flag.set 1#1 i else s.flag) ∧
      t.db.get i = .idle ∧ t.pin = u.pin ∧
      ∀ j, j ≠ i → t.pin.get j = s.pin.get j ∧ t.db.get j = s.db.get j ∧ t.flag.get j = s.flag.get j

/-- 42_timer.md rules R180, R183, R185: after n ticks of CNT, the difference of the two readings is n modulo
65536, whatever CNT held; nothing else changes. -/
def Obligations.ElapsedCountsTicksModulo : Prop :=
  ∀ (s : State) (n : Nat),
    ∃ t, Sys2Proof.core.run n { s with sched := List.replicate n .clk } = .next t ∧
      t = { s with sched := [], cnt := t.cnt } ∧ (elapsedTicks s.cnt t.cnt).toNat = n % 65536

/-- 42_timer.md rules R186, R187, R188: after n periodic ticks COUNT is n more, modulo 2^32. -/
def Obligations.CountCountsTicksModulo : Prop :=
  ∀ (s : State) (n : Nat),
    ∃ t, Sys2Proof.core.run n { s with sched := List.replicate n .tick } = .next t ∧
      t = { s with sched := [], count := t.count } ∧
      t.count.toNat = (s.count.toNat + n) % 4294967296

/-- 42_timer.md rule R184: the arithmetic law of ELAPSED; no flag is set. -/
def Obligations.ElapsedArithmeticLaw : Prop :=
  ∀ (s : State) (start stop : Half), s.seqOp = .none →
    ∃ t, exec (.elapsed start stop) s = .next t ∧ t.flag = s.flag ∧
      t.res.toNat = if start.toNat ≤ stop.toNat then stop.toNat - start.toNat
        else stop.toNat + 65536 - start.toNat

/-! The controller's reference model. -/

/-- 46_controller_double.md rule R262, for LINK.SLPOUT, GAMSET, PWCTR, STBA, COLMOD, MADCTL, NORON, DISPON,
CASET, RASET and RAMWR: receiving the command frame completes, drops the half pixel, makes the command
current, and leaves the block, the window, frame memory and the recorded parameters alone. -/
def Obligations.CommandFrameCompletes : Prop :=
  ∀ (s : State) (sym : LinkCmd), ∃ c, exec sym.instr s = .next { s with ctrl := c } ∧
    c.cmd = some sym ∧ c.pidx = 0 ∧ c.half = none ∧
    c.on = (s.ctrl.on || decide (sym = .dispon)) ∧
    c.xs = s.ctrl.xs ∧ c.xe = s.ctrl.xe ∧ c.ys = s.ctrl.ys ∧ c.ye = s.ctrl.ye ∧
    c.recorded = s.ctrl.recorded ∧ c.unmodelled = s.ctrl.unmodelled ∧
    (∀ a, c.gram.read a = s.ctrl.gram.read a) ∧
    (sym ≠ .ramwr → c.cur = s.ctrl.cur ∧ c.corrupt = s.ctrl.corrupt)

/-- Rule R262, RAMWR: the cursor goes to the start of a whole, not reversed window; otherwise CORRUPT. That CORRUPT is
unchanged when such a window reaches outside the extent is the model's choice (log 33, D27). -/
def Obligations.MemoryWriteOpensCursor : Prop :=
  ∀ s : State, ∃ c, exec .linkRamwr s = .next { s with ctrl := c } ∧
    (∀ xs xe ys ye, s.ctrl.xs = some xs → s.ctrl.xe = some xe → s.ctrl.ys = some ys →
      s.ctrl.ye = some ye →
      (xs.toNat ≤ xe.toNat ∧ ys.toNat ≤ ye.toNat → c.cur = .at xs ys ∧ c.corrupt = s.ctrl.corrupt) ∧
      (¬ (xs.toNat ≤ xe.toNat ∧ ys.toNat ≤ ye.toNat) → c.cur = .none ∧ c.corrupt = true)) ∧
    (s.ctrl.xs = none ∨ s.ctrl.xe = none ∨ s.ctrl.ys = none ∨ s.ctrl.ye = none →
      c.cur = .none ∧ c.corrupt = true)

/-- Rule R262: a command frame whose byte is none of the eleven sets UNMODELLED, and no command is current; the
window, the cursor, the display switch, the recorded parameters and frame memory are left alone. -/
def Obligations.UnknownCommandIsMarked : Prop :=
  ∀ (s : State) (rest : List Agent) (b : Byte) (es : List LinkEvent),
    s.sched = .ctrl :: rest → s.linkTodo = .frame 0#1 b :: es → (∀ sym, s.cfg.cmdByte sym ≠ b) →
    ∃ c, step s = .next { s with
        sched := rest, linkDone := s.linkDone ++ [.frame 0#1 b], linkTodo := es, ctrl := c } ∧
      c.unmodelled = true ∧ c.cmd = none ∧ c.half = none ∧ c.corrupt = s.ctrl.corrupt ∧
      c.xs = s.ctrl.xs ∧ c.xe = s.ctrl.xe ∧ c.ys = s.ctrl.ys ∧ c.ye = s.ctrl.ye ∧
      c.cur = s.ctrl.cur ∧ c.on = s.ctrl.on ∧ c.recorded = s.ctrl.recorded ∧
      ∀ a, c.gram.read a = s.ctrl.gram.read a

/-- Rules R263, R264: a data frame after CASET or RASET sets a byte of the window, start before end, high
byte before low byte; a fifth one sets UNMODELLED. That a high byte clears the low byte of every one of the
four, and that a low byte without a high byte leaves none, is the model's reading (log 13). That CORRUPT is unchanged
when the byte makes a window that reaches outside the extent is the model's choice (log 33, D27). -/
def Obligations.WindowDataFrames : Prop :=
  ∀ (s : State) (b : Byte),
    let high := some (BitVec.ofNat 16 (b.toNat * 256))
    let low := fun w : Option Half => w.map (fun v => BitVec.ofNat 16 (v.toNat / 256 * 256 + b.toNat))
    (s.ctrl.cmd = some .caset → ∃ c, exec (.linkData b) s = .next { s with ctrl := c } ∧
      c.pidx = s.ctrl.pidx + 1 ∧
      c.xs = (if s.ctrl.pidx = 0 then high else if s.ctrl.pidx = 1 then low s.ctrl.xs else s.ctrl.xs) ∧
      c.xe = (if s.ctrl.pidx = 2 then high else if s.ctrl.pidx = 3 then low s.ctrl.xe else s.ctrl.xe) ∧
      c.unmodelled = (s.ctrl.unmodelled || decide (4 ≤ s.ctrl.pidx)) ∧
      c.ys = s.ctrl.ys ∧ c.ye = s.ctrl.ye ∧ c.cmd = s.ctrl.cmd ∧ c.gram = s.ctrl.gram ∧
      c.cur = s.ctrl.cur ∧ c.half = s.ctrl.half ∧ c.on = s.ctrl.on ∧ c.recorded = s.ctrl.recorded ∧
      c.corrupt = s.ctrl.corrupt) ∧
    (s.ctrl.cmd = some .raset → ∃ c, exec (.linkData b) s = .next { s with ctrl := c } ∧
      c.pidx = s.ctrl.pidx + 1 ∧
      c.ys = (if s.ctrl.pidx = 0 then high else if s.ctrl.pidx = 1 then low s.ctrl.ys else s.ctrl.ys) ∧
      c.ye = (if s.ctrl.pidx = 2 then high else if s.ctrl.pidx = 3 then low s.ctrl.ye else s.ctrl.ye) ∧
      c.unmodelled = (s.ctrl.unmodelled || decide (4 ≤ s.ctrl.pidx)) ∧
      c.xs = s.ctrl.xs ∧ c.xe = s.ctrl.xe ∧ c.cmd = s.ctrl.cmd ∧ c.gram = s.ctrl.gram ∧
      c.cur = s.ctrl.cur ∧ c.half = s.ctrl.half ∧ c.on = s.ctrl.on ∧ c.recorded = s.ctrl.recorded ∧
      c.corrupt = s.ctrl.corrupt)

/-- Rule R263: a data frame after a configuration command is recorded; after a command without parameters,
or with no command current, it sets UNMODELLED; with any of these it leaves frame memory, the window, the cursor, the
half pixel, the command, the display switch and CORRUPT alone. With any command current and with none, the place `k`
in `E` and UNDEFINED move as the comparison of rule R270 moves them (`Ctrl.track`), and not otherwise. -/
def Obligations.ParameterDataFrames : Prop :=
  ∀ (s : State) (b : Byte), ∃ c, exec (.linkData b) s = .next { s with ctrl := c } ∧
    c.pidx = s.ctrl.pidx + 1 ∧
    c.k = (s.ctrl.track s.cfg (.frame 1#1 b)).k ∧ c.undef = (s.ctrl.track s.cfg (.frame 1#1 b)).undef ∧
    (s.ctrl.cmd = some .gamset → c.recorded = { s.ctrl.recorded with
      gamset := s.ctrl.recorded.gamset ++ [b] } ∧ c.unmodelled = s.ctrl.unmodelled) ∧
    (s.ctrl.cmd = some .pwctr → c.recorded = { s.ctrl.recorded with
      pwctr := s.ctrl.recorded.pwctr ++ [b] } ∧ c.unmodelled = s.ctrl.unmodelled) ∧
    (s.ctrl.cmd = some .stba → c.recorded = { s.ctrl.recorded with
      stba := s.ctrl.recorded.stba ++ [b] } ∧ c.unmodelled = s.ctrl.unmodelled) ∧
    (s.ctrl.cmd = some .colmod → c.recorded = { s.ctrl.recorded with
      colmod := s.ctrl.recorded.colmod ++ [b] } ∧ c.unmodelled = s.ctrl.unmodelled) ∧
    (s.ctrl.cmd = some .madctl → c.recorded = { s.ctrl.recorded with
      madctl := s.ctrl.recorded.madctl ++ [b] } ∧ c.unmodelled = s.ctrl.unmodelled) ∧
    (s.ctrl.cmd = some .slpout ∨ s.ctrl.cmd = some .noron ∨ s.ctrl.cmd = some .dispon ∨
      s.ctrl.cmd = none → c.recorded = s.ctrl.recorded ∧ c.unmodelled = true) ∧
    (s.ctrl.cmd ≠ some .caset → s.ctrl.cmd ≠ some .raset → s.ctrl.cmd ≠ some .ramwr →
      (∀ a, c.gram.read a = s.ctrl.gram.read a) ∧
      c.xs = s.ctrl.xs ∧ c.xe = s.ctrl.xe ∧ c.ys = s.ctrl.ys ∧ c.ye = s.ctrl.ye ∧
      c.cur = s.ctrl.cur ∧ c.half = s.ctrl.half ∧ c.cmd = s.ctrl.cmd ∧ c.on = s.ctrl.on ∧
      c.corrupt = s.ctrl.corrupt)

/-- Rules R265, R267: the second byte of a pixel stores the colour, high byte first, at the cursor's cell
and nowhere else; outside the extent, past the window or without one, nothing is written and CORRUPT is set; and once
CORRUPT is set the double says nothing of any cell. A pixel byte changes neither the window, the command, the display
switch nor the recorded parameters. -/
def Obligations.PixelDataFrames : Prop :=
  ∀ (s : State) (b : Byte), s.ctrl.cmd = some .ramwr →
    ∃ c, exec (.linkData b) s = .next { s with ctrl := c } ∧
      c.xs = s.ctrl.xs ∧ c.xe = s.ctrl.xe ∧ c.ys = s.ctrl.ys ∧ c.ye = s.ctrl.ye ∧ c.cmd = s.ctrl.cmd ∧
      c.on = s.ctrl.on ∧ c.recorded = s.ctrl.recorded ∧ c.pidx = s.ctrl.pidx + 1 ∧
      c.unmodelled = s.ctrl.unmodelled ∧
      (c.corrupt = true → ∀ a, c.cell a = none) ∧
      (s.ctrl.half = none → c.half = some b ∧ c.cur = s.ctrl.cur ∧ c.corrupt = s.ctrl.corrupt ∧
        c.gram = s.ctrl.gram ∧ ∀ a, c.cell a = s.ctrl.cell a) ∧
      ∀ hi, s.ctrl.half = some hi →
        c.half = none ∧
        (∀ col row, s.ctrl.cur = .at col row → inExtent s.cfg col row = true →
          c.corrupt = s.ctrl.corrupt ∧
          (c.corrupt = false → c.cell (gramKey col row) = some (BitVec.ofNat 16 (hi.toNat * 256 + b.toNat))) ∧
          ∀ a, a ≠ gramKey col row → c.cell a = s.ctrl.cell a ∧ c.gram.read a = s.ctrl.gram.read a) ∧
        (∀ col row, s.ctrl.cur = .at col row → inExtent s.cfg col row = false →
          c.gram = s.ctrl.gram ∧ c.corrupt = true) ∧
        (s.ctrl.cur = .stop ∨ s.ctrl.cur = .none →
          c.gram = s.ctrl.gram ∧ c.corrupt = true ∧ c.cur = s.ctrl.cur)

/-- Rule R266: the column moves fastest, then the row; after the window's last cell the cursor is END. -/
def Obligations.CursorAdvances : Prop :=
  ∀ (s : State) (b hi : Byte) (col row xs xe ye : Half),
    s.ctrl.cmd = some .ramwr → s.ctrl.half = some hi → s.ctrl.cur = .at col row →
    s.ctrl.xs = some xs → s.ctrl.xe = some xe → s.ctrl.ye = some ye →
    ∃ c, exec (.linkData b) s = .next { s with ctrl := c } ∧
      c.cur = (if col.toNat < xe.toNat then .at (BitVec.ofNat 16 (col.toNat + 1)) row
        else if row.toNat < ye.toNat then .at xs (BitVec.ofNat 16 (row.toNat + 1)) else .stop)

/-- Rule R270: how a frame, a reset release and a dwell move the place `k` in `E`, and what sets UNDEFINED.
That a frame which mismatches is processed all the same, and the mark of a release on a ready double, are the
model's reading (logs 11, 14). -/
def Obligations.ExpectedSequenceIsTracked : Prop :=
  ∀ (cfg : Cfg) (c : Ctrl),
    (∀ dc b w, (expected cfg)[c.k]? = some w →
      (w = .frame dc b → (c.consume cfg (.frame dc b)).k = c.k + 1 ∧
        (c.consume cfg (.frame dc b)).undef = c.undef) ∧
      (w ≠ .frame dc b → (c.consume cfg (.frame dc b)).k = c.k ∧
        (c.consume cfg (.frame dc b)).undef = true)) ∧
    (∀ n m, (expected cfg)[c.k]? = some (.dwell m) →
      (m ≤ n → c.consume cfg (.dwell n) = { c with k := c.k + 1 }) ∧
      (n < m → c.consume cfg (.dwell n) = { c with undef := true })) ∧
    (∀ n w, (expected cfg)[c.k]? = some w → (∀ m, w ≠ .dwell m) → c.consume cfg (.dwell n) = c) ∧
    (∀ w, (expected cfg)[c.k]? = some w →
      (w = .rstRelease → c.consume cfg .rstRelease = { c with k := c.k + 1 }) ∧
      (w ≠ .rstRelease → c.consume cfg .rstRelease = { c with undef := true })) ∧
    (c.ready cfg = true →
      (∀ n, c.consume cfg (.dwell n) = c) ∧
      c.consume cfg .rstRelease = { c with unmodelled := true } ∧
      ∀ dc b, (c.consume cfg (.frame dc b)).k = c.k ∧ (c.consume cfg (.frame dc b)).undef = c.undef)

/-- Rule R271: the reset pulse empties the double, keeps its marks, and is the first element of `E`. -/
def Obligations.ResetPulseEmptiesController : Prop :=
  ∀ (s : State) (rest : List Agent) (es : List LinkEvent),
    s.sched = .ctrl :: rest → s.linkTodo = .rstAssert :: es →
    ∃ c, step s = .next { s with
        sched := rest, linkDone := s.linkDone ++ [.rstAssert], linkTodo := es, ctrl := c } ∧
      c.k = 1 ∧ c.cmd = none ∧ c.xs = none ∧ c.xe = none ∧ c.ys = none ∧ c.ye = none ∧
      c.cur = .none ∧ c.half = none ∧ c.on = false ∧ (∀ a, c.gram.read a = none) ∧
      c.recorded = { gamset := [], pwctr := [], stba := [], colmod := [], madctl := [] } ∧
      c.SameMarks s.ctrl ∧ (expected s.cfg)[0]? = some .rstAssert

/-- Rules R260, R292: the three marks are sticky. -/
def Obligations.MarksAreSticky : Prop :=
  ∀ s t : State, step s = .next t →
    (s.ctrl.corrupt = true → t.ctrl.corrupt = true) ∧
    (s.ctrl.undef = true → t.ctrl.undef = true) ∧
    (s.ctrl.unmodelled = true → t.ctrl.unmodelled = true)

/-- Rules R102, R264: the trace of WINDOW sets exactly the window sent, and nothing of frame memory. That the
marks are unchanged for a window that reaches outside the extent too is the model's choice (log 33, D27). -/
def Obligations.WindowTraceSetsWindow : Prop :=
  ∀ (cfg : Cfg) (c : Ctrl) (xs xe ys ye : Half), cfg.CommandsDistinct → c.ready cfg = true →
    let d := c.consumeAll cfg ((windowList cfg xs xe ys ye).map Micro.event)
    d.xs = some xs ∧ d.xe = some xe ∧ d.ys = some ys ∧ d.ye = some ye ∧
    d.gram = c.gram ∧ d.SameMarks c ∧ d.ready cfg = true

/-- Rule R273, SETPIXEL: on a ready double, an in-extent pixel is set, no other cell changes, no new mark. What is
visible is claimed iff no mark is set (rule R272). The parameter lists play no part, so they may be any. -/
def Obligations.SetPixelTraceSetsOnePixel : Prop :=
  ∀ (cfg : Cfg) (c : Ctrl) (x y v : Half), cfg.CommandsDistinct → cfg.ExtentFits → c.ready cfg = true →
    cfg.InView x y →
    let d := c.consumeAll cfg ((ucode cfg .setPixel x y v 0#1).map Micro.event)
    (c.NoMark → d.visible cfg x y = some v) ∧
    (∀ a, a ≠ gramKey (addrX x) (addrY y) → d.cell a = c.cell a ∧ d.gram.read a = c.gram.read a) ∧
    d.SameMarks c ∧ d.ready cfg = true ∧ d.on = c.on

/-- 41_display_driver.md rule R161, rule R267: SETPIXEL outside the extent sends its frames all the same, and
the double writes nothing and sets CORRUPT, after which it says nothing of any cell. -/
def Obligations.SetPixelOutsideExtentIsMarked : Prop :=
  ∀ (cfg : Cfg) (c : Ctrl) (x y v : Half), cfg.CommandsDistinct → cfg.ExtentFits → c.ready cfg = true →
    ¬ cfg.InView x y →
    (ucode cfg .setPixel x y v 0#1).length = 13 ∧
    let d := c.consumeAll cfg ((ucode cfg .setPixel x y v 0#1).map Micro.event)
    d.corrupt = true ∧ d.gram = c.gram ∧ (∀ a, d.cell a = none) ∧ ∀ x' y', d.visible cfg x' y' = none

/-- Rule R273, CLEAR: on a ready double every visible pixel becomes the colour, no new mark. What is visible is
claimed iff no mark is set (rule R272). The parameter lists play no part, so they may be any. -/
def Obligations.ClearTraceFillsScreen : Prop :=
  ∀ (cfg : Cfg) (c : Ctrl) (v : Half), cfg.CommandsDistinct → cfg.ExtentFits → c.ready cfg = true →
    let d := c.consumeAll cfg ((ucode cfg .clear 0#16 0#16 v 0#1).map Micro.event)
    (c.NoMark → ∀ x y, cfg.InView x y → d.visible cfg x y = some v) ∧
    d.SameMarks c ∧ d.ready cfg = true ∧ d.on = c.on

/-- Rule R273, INIT: from any state of the double, its trace leaves it ready, shown, every visible pixel the
fill colour, the parameters recorded, no new mark. What is visible is claimed iff no mark is set (rule R272). The
statement holds whatever the parameter lists, empty ones included. -/
def Obligations.InitTraceMakesControllerReady : Prop :=
  ∀ (cfg : Cfg) (c : Ctrl), cfg.CommandsDistinct → cfg.ExtentFits →
    let d := c.consumeAll cfg ((ucode cfg .init 0#16 0#16 0#16 0#1).map Micro.event)
    d.ready cfg = true ∧ d.on = true ∧ d.shown = true ∧ d.SameMarks c ∧
    (c.NoMark → ∀ x y, cfg.InView x y → d.visible cfg x y = some cfg.initFillColor) ∧
    d.recorded = { gamset := cfg.pGamset, pwctr := cfg.pPwctr, stba := cfg.pStba, colmod := cfg.pColmod,
                   madctl := cfg.pMadctl }

/-- 41_display_driver.md rule R163: CLEAR followed by SETPIXEL, re-read through the double, shows exactly one
pixel differing. `Visible` is defined for a claim iff no mark is set (rule R272), hence the premise. -/
def Obligations.ClearThenSetPixelDiffersInOne : Prop :=
  ∀ (cfg : Cfg) (c : Ctrl) (x y color c2 : Half), cfg.CommandsDistinct → cfg.ExtentFits → c.ready cfg = true →
    c.NoMark → cfg.InView x y → c2 ≠ color →
    let d := (c.consumeAll cfg ((ucode cfg .clear 0#16 0#16 color 0#1).map Micro.event)).consumeAll cfg
      ((ucode cfg .setPixel x y c2 0#1).map Micro.event)
    d.NoMark ∧ ∀ x' y', cfg.InView x' y' →
      (d.visible cfg x' y' ≠ some color ↔ x' = x ∧ y' = y) ∧
      (x' = x ∧ y' = y → d.visible cfg x' y' = some c2)

/-! The reference host. -/

/-- 45_host_reference.md rule R237: the integer thresholds. -/
def Obligations.MatchThresholds : Prop :=
  ∀ v : BitVec 14,
    (sampleMatches .up v = true ↔ v.toNat ≤ 3276) ∧ (sampleMatches .right v = true ↔ v.toNat ≤ 3276) ∧
    (sampleMatches .down v = true ↔ 13108 ≤ v.toNat) ∧ (sampleMatches .left v = true ↔ 13108 ≤ v.toNat)

/-- Rule R238: the time figure, with the correction for Cross only. -/
def Obligations.TimeFigureFormula : Prop :=
  ∀ (st : Stimulus) (count : Word) (ticks : Half),
    timeFigure st count ticks =
      (count.toNat : Int) * 100 + (ticks.toNat : Int) / 3000 - (if st = .cross then 10 else 0)

/-- Rule R239: for 0 ≤ T ≤ 99999 the five characters are the decimal digits of T, ten-thousands first. -/
def Obligations.OutputIsDecimal : Prop :=
  ∀ (draw t : Nat), t ≤ 99999 →
    ∃ d4 d3 d2 d1 d0 : Nat, d4 < 10 ∧ d3 < 10 ∧ d2 < 10 ∧ d1 < 10 ∧ d0 < 10 ∧
      t = d4 * 10000 + d3 * 1000 + d2 * 100 + d1 * 10 + d0 ∧
      timeChars draw t = [BitVec.ofNat 8 (48 + d4), BitVec.ofNat 8 (48 + d3), BitVec.ofNat 8 (48 + d2),
        BitVec.ofNat 8 (48 + d1), BitVec.ofNat 8 (48 + d0)]

/-- Rules R232, R235, R236, R237: every pixel the renderer draws lies in the extent; the active axis does not
change during AwaitingMatch; the engine leaves AwaitingMatch at the first evaluation that is true, a fresh sample
for a directional stimulus and a poll of the confirm flag for Cross, and Idle at the first poll of START that
returns 1, which it then clears. One clause for each phase gives what R236 orders around the polls: INIT, then CLEAR;
after the renderer's pixels, FLAGCLR CONFIRM, CNTRST and TMRRD at the round start; TMRRD, ELAPSED start end and CNTRD
at its end; then the report (the call that carries each piece of it is log 31). A turn of HOST with the port free is a turn of the engine and runs the operation
it issues, if any. The cut of the engine into turns is the model's (logs 9, 19). -/
def Obligations.EngineDuties : Prop :=
  (∀ (cfg : Cfg) (st : Stimulus), ∀ p ∈ renderPixels cfg st, cfg.InView p.1 p.2) ∧
  (∀ (cfg : Cfg) (res : Word) (draw : Nat) (e : Engine),
    (e.phase = .boot → e.turn cfg res draw = ({ e with phase := .idleClear }, some .init)) ∧
    (e.phase = .idleClear →
      e.turn cfg res draw = ({ e with phase := .idlePoll }, some (.clear Config.backgroundColor))) ∧
    (e.phase = .idlePoll → e.turn cfg res draw = ({ e with phase := .idleTest }, some (.flagrd .start))) ∧
    (e.phase = .choose → ∃ st, e.turn cfg res draw =
      ({ e with phase := .render, stimulus := st, todo := renderPixels cfg st }, none)) ∧
    (e.phase = .render →
      (∀ p ps, e.todo = p :: ps →
        e.turn cfg res draw = ({ e with todo := ps }, some (.setPixel p.1 p.2 Config.stimulusColor))) ∧
      (e.todo = [] →
        e.turn cfg res draw = ({ e with phase := .clearConfirm, axis := axisOf e.stimulus }, none))) ∧
    (e.phase = .clearConfirm →
      e.turn cfg res draw = ({ e with phase := .resetCount }, some (.flagclr .confirm))) ∧
    (e.phase = .resetCount → e.turn cfg res draw = ({ e with phase := .readStart }, some .cntrst)) ∧
    (e.phase = .readStart → e.turn cfg res draw = ({ e with phase := .latchStart }, some .tmrrd)) ∧
    (e.phase = .latchStart → e.turn cfg res draw =
      ({ e with phase := .evaluate, start := BitVec.ofNat 16 res.toNat }, none)) ∧
    (e.phase = .latchEnd → e.turn cfg res draw =
      ({ e with phase := .latchTicks, stop := BitVec.ofNat 16 res.toNat },
        some (.elapsed e.start (BitVec.ofNat 16 res.toNat)))) ∧
    (e.phase = .latchTicks → e.turn cfg res draw =
      ({ e with phase := .report, ticks := BitVec.ofNat 16 res.toNat }, some .cntrd)) ∧
    (e.phase = .report → e.turn cfg res draw =
      ({ e with
          phase := .idleClear,
          out := e.out ++ ([.writeString Config.prompt] ++
            (timeChars draw (timeFigure e.stimulus res e.ticks)).map OutEvent.writeChar ++
            [.writeString Config.instructionString]) }, none)) ∧
    (e.phase = .evaluate ∨ e.phase = .crossTest → (e.turn cfg res draw).1.axis = e.axis) ∧
    (e.phase = .evaluate → e.stimulus ≠ .cross →
      e.turn cfg res draw =
        if sampleMatches e.stimulus (Config.freeSample draw) then ({ e with phase := .latchEnd }, some .tmrrd)
        else (e, none)) ∧
    (e.phase = .evaluate → e.stimulus = .cross →
      e.turn cfg res draw = ({ e with phase := .crossTest }, some (.flagrd .confirm))) ∧
    (e.phase = .crossTest →
      (res = 1#32 → e.turn cfg res draw = ({ e with phase := .latchEnd }, some .tmrrd)) ∧
      (res ≠ 1#32 → e.turn cfg res draw = (e, some (.flagrd .confirm)))) ∧
    (e.phase = .idleTest →
      (res = 1#32 → e.turn cfg res draw = ({ e with phase := .choose }, some (.flagclr .start))) ∧
      (res ≠ 1#32 → e.turn cfg res draw = (e, some (.flagrd .start))))) ∧
  ∀ (s : State) (rest : List Agent) (e e' : Engine), s.sched = .host :: rest → s.seqOp = .none →
    s.host = .engine e →
    (e.turn s.cfg s.res s.draws = (e', none) →
      step s = .next { s with sched := rest, host := .engine e', draws := s.draws + 1 }) ∧
    (∀ i, e.turn s.cfg s.res s.draws = (e', some i) →
      step s = exec i { s with sched := rest, host := .engine e', draws := s.draws + 1 })
end

