-- ==== Sys2Proof/Laws/Decode.lean ====
section
/-! SUPPORT. The bit-field helpers of Decode: fields and bits determine each other, bytes of a 16-bit value,
dc and byte of a frame, command symbols. -/

namespace Sys2Proof

theorem extract_append_high {n m : Nat} (a : BitVec n) (b : BitVec m) (k l : Nat) :
    (a ++ b).extractLsb' (m + k) l = a.extractLsb' k l := by
  ext i hi
  simp only [BitVec.getElem_extractLsb', BitVec.getLsbD_append]
  rw [if_neg (by omega)]
  congr 1
  omega

theorem extract_append_low {n m : Nat} (a : BitVec n) (b : BitVec m) :
    (a ++ b).extractLsb' 0 m = b := by
  ext i hi
  simp [BitVec.getElem_extractLsb', BitVec.getLsbD_append, hi]

theorem extract_append_top {n m : Nat} (a : BitVec n) (b : BitVec m) :
    (a ++ b).extractLsb' m n = a := by
  simpa using extract_append_high a b 0 n

theorem append_extract {w : Nat} (d : BitVec w) (k n m : Nat) :
    d.extractLsb' (k + m) n ++ d.extractLsb' k m = d.extractLsb' k (n + m) := by
  ext i hi
  simp only [BitVec.getElem_append, BitVec.getElem_extractLsb']
  split_ifs
  · rfl
  · congr 1
    omega

theorem DescFields.ofBits_toBits (f : DescFields) : DescFields.ofBits f.toBits = f := by
  obtain ⟨opc, z7, m, x, y, v⟩ := f
  have hv : DescFields.toBits ⟨opc, z7, m, x, y, v⟩ = opc ++ z7 ++ m ++ x ++ y ++ v := rfl
  simp only [DescFields.ofBits, hv, DescFields.mk.injEq]
  refine ⟨?_, ?_, ?_, ?_, ?_, extract_append_low _ _⟩
  · exact (extract_append_high _ v 40 8).trans <| (extract_append_high _ y 24 8).trans <|
      (extract_append_high _ x 8 8).trans <| (extract_append_high _ m 7 8).trans <|
      extract_append_top opc z7
  · exact (extract_append_high _ v 33 7).trans <| (extract_append_high _ y 17 7).trans <|
      (extract_append_high _ x 1 7).trans <| (extract_append_high _ m 0 7).trans <|
      extract_append_low opc z7
  · exact (extract_append_high _ v 32 1).trans <| (extract_append_high _ y 16 1).trans <|
      (extract_append_high _ x 0 1).trans <| extract_append_low _ m
  · exact (extract_append_high _ v 16 16).trans <| (extract_append_high _ y 0 16).trans <|
      extract_append_low _ x
  · exact (extract_append_high _ v 0 16).trans <| extract_append_low _ y

theorem DescFields.toBits_ofBits (d : Descriptor) : (DescFields.ofBits d).toBits = d := by
  have h1 : d.extractLsb' 56 8 ++ d.extractLsb' 49 7 = d.extractLsb' 49 15 := append_extract d 49 8 7
  have h2 : d.extractLsb' 49 15 ++ d.extractLsb' 48 1 = d.extractLsb' 48 16 := append_extract d 48 15 1
  have h3 : d.extractLsb' 48 16 ++ d.extractLsb' 32 16 = d.extractLsb' 32 32 := append_extract d 32 16 16
  have h4 : d.extractLsb' 32 32 ++ d.extractLsb' 16 16 = d.extractLsb' 16 48 := append_extract d 16 32 16
  have h5 : d.extractLsb' 16 48 ++ d.extractLsb' 0 16 = d.extractLsb' 0 64 := append_extract d 0 48 16
  exact (congrArg (fun a : BitVec 15 => a ++ d.extractLsb' 48 1 ++ d.extractLsb' 32 16 ++
      d.extractLsb' 16 16 ++ d.extractLsb' 0 16) h1).trans <|
    (congrArg (fun a : BitVec 16 => a ++ d.extractLsb' 32 16 ++ d.extractLsb' 16 16 ++
      d.extractLsb' 0 16) h2).trans <|
    (congrArg (fun a : BitVec 32 => a ++ d.extractLsb' 16 16 ++ d.extractLsb' 0 16) h3).trans <|
    (congrArg (fun a : BitVec 48 => a ++ d.extractLsb' 0 16) h4).trans <|
    h5.trans (BitVec.extractLsb'_eq_self)

theorem hiByte_joinBytes (h l : Byte) : hiByte (joinBytes h l) = h := extract_append_top h l

theorem loByte_joinBytes (h l : Byte) : loByte (joinBytes h l) = l := extract_append_low h l

theorem joinBytes_hiByte_loByte (v : Half) : joinBytes (hiByte v) (loByte v) = v :=
  (append_extract v 0 8 8).trans BitVec.extractLsb'_eq_self

theorem frameDc_frameBits (dc : Bit) (b : Byte) : frameDc (frameBits dc b) = dc :=
  extract_append_top dc b

theorem frameByte_frameBits (dc : Bit) (b : Byte) : frameByte (frameBits dc b) = b :=
  extract_append_low dc b

theorem frameBits_frameDc_frameByte (f : BitVec 9) : frameBits (frameDc f) (frameByte f) = f :=
  (append_extract f 0 1 8).trans BitVec.extractLsb'_eq_self

theorem Bit.eq_zero_or_one (b : Bit) : b = 0#1 ∨ b = 1#1 := by
  revert b; decide

theorem buttonOfBit_bit (i : Button) : buttonOfBit i.bit = i := by cases i <;> rfl

theorem bit_buttonOfBit (m : Bit) : (buttonOfBit m).bit = m := by
  obtain rfl | rfl := Bit.eq_zero_or_one m <;> rfl

theorem LinkCmd.mem_all (c : LinkCmd) : c ∈ LinkCmd.all := by cases c <;> decide

theorem LinkCmd.instr_injective {c d : LinkCmd} (h : c.instr = d.instr) : c = d := by
  cases c <;> cases d <;> first | rfl | cases h

/-- A byte names the symbol whose byte it is. -/
theorem Cfg.cmdByte_of_symbolOf {cfg : Cfg} {b : Byte} {c : LinkCmd} (h : cfg.symbolOf b = some c) :
    cfg.cmdByte c = b := by
  simpa using List.find?_some h

/-- Distinct command bytes name distinct symbols. -/
theorem Cfg.CommandsDistinct.cmdByte_injective {cfg : Cfg} (h : cfg.CommandsDistinct) {c d : LinkCmd}
    (e : cfg.cmdByte c = cfg.cmdByte d) : c = d :=
  List.inj_on_of_nodup_map h (LinkCmd.mem_all c) (LinkCmd.mem_all d) e

/-- A well-formed extent fits the 16-bit addresses as rule R6 asks. -/
theorem Cfg.ExtentOk.fits {cfg : Cfg} (h : cfg.ExtentOk) : cfg.ExtentFits :=
  ⟨h.1, h.2.1, by omega, by omega, h.2.2.2.2⟩

/-- With distinct command bytes each byte of a symbol names that symbol (00_scope.md rule R6,
46_controller_double.md rule R262). -/
theorem Cfg.symbolOf_cmdByte {cfg : Cfg} (h : cfg.CommandsDistinct) (c : LinkCmd) :
    cfg.symbolOf (cfg.cmdByte c) = some c := by
  cases hs : cfg.symbolOf (cfg.cmdByte c) with
  | none => simpa using List.find?_eq_none.1 hs c (LinkCmd.mem_all c)
  | some d => rw [h.cmdByte_injective (Cfg.cmdByte_of_symbolOf hs)]

/-- One test of the opcode map: what holds of the row it selects, and of everything a later row answers, holds of
the answer. -/
theorem answer_of_test {P : Instr → Prop} {c : Prop} [Decidable c] {b : Bool} {x i : Instr} {e : Option Instr}
    (h : (if c then (if b then some x else none) else e) = some i) (row : c → b = true → P x)
    (later : e = some i → P i) : P i := by
  split at h
  · next hc =>
    split at h
    · next hb => exact Option.some.inj h ▸ row hc hb
    · cases h
  · exact later h

/-- The opcode map as a relation, one constructor per row of 30_encoding.md rule R94: the opcode, the format
whose must-be-zero fields hold, and the instruction the remaining fields give. -/
inductive DescFields.Row : DescFields → Instr → Prop where
  | send {f : DescFields} (opc : f.opc = 0x01#8) (fmt : f.isB = true) : Row f (.send (loByte f.v) f.m)
  | init {f : DescFields} (opc : f.opc = 0x02#8) (fmt : f.isZ = true) : Row f .init
  | clear {f : DescFields} (opc : f.opc = 0x03#8) (fmt : f.isC = true) : Row f (.clear f.v)
  | setPixel {f : DescFields} (opc : f.opc = 0x04#8) (fmt : f.isP = true) : Row f (.setPixel f.x f.y f.v)
  | tmrrd {f : DescFields} (opc : f.opc = 0x10#8) (fmt : f.isZ = true) : Row f .tmrrd
  | elapsed {f : DescFields} (opc : f.opc = 0x11#8) (fmt : f.isE = true) : Row f (.elapsed f.x f.y)
  | cntrst {f : DescFields} (opc : f.opc = 0x12#8) (fmt : f.isZ = true) : Row f .cntrst
  | cntrd {f : DescFields} (opc : f.opc = 0x13#8) (fmt : f.isZ = true) : Row f .cntrd
  | flagrd {f : DescFields} (opc : f.opc = 0x20#8) (fmt : f.isF = true) : Row f (.flagrd (buttonOfBit f.m))
  | flagclr {f : DescFields} (opc : f.opc = 0x21#8) (fmt : f.isF = true) : Row f (.flagclr (buttonOfBit f.m))
  | flagrc {f : DescFields} (opc : f.opc = 0x22#8) (fmt : f.isF = true) : Row f (.flagrc (buttonOfBit f.m))

/-- Everything the opcode map can answer: the fields of a row and that row's instruction. -/
theorem DescFields.row_of_decodeFields {f : DescFields} {i : Instr} (h : decodeFields f = some i) :
    f.Row i := by
  refine answer_of_test h .send fun h => ?_
  refine answer_of_test h .init fun h => ?_
  refine answer_of_test h .clear fun h => ?_
  refine answer_of_test h .setPixel fun h => ?_
  refine answer_of_test h .tmrrd fun h => ?_
  refine answer_of_test h .elapsed fun h => ?_
  refine answer_of_test h .cntrst fun h => ?_
  refine answer_of_test h .cntrd fun h => ?_
  refine answer_of_test h .flagrd fun h => ?_
  refine answer_of_test h .flagclr fun h => ?_
  exact answer_of_test h .flagrc (nomatch ·)

/-- A descriptor that decodes has Z7 = 0 and the fields of a row. -/
theorem decode_eq_some {d : Descriptor} {i : Instr} :
    decode d = some i ↔
      (DescFields.ofBits d).z7 = 0#7 ∧ decodeFields (DescFields.ofBits d) = some i := by
  unfold decode
  split <;> simp_all

/-- A descriptor that decodes has the fields of a row. -/
theorem row_of_decode {d : Descriptor} {i : Instr} (h : decode d = some i) : (DescFields.ofBits d).Row i :=
  DescFields.row_of_decodeFields (decode_eq_some.1 h).2

theorem decode_mkDescriptor (opc : Byte) (m : Bit) (x y v : Half) :
    decode (mkDescriptor opc m x y v) =
      decodeFields { opc := opc, z7 := 0#7, m := m, x := x, y := y, v := v } := by
  simp [decode, mkDescriptor, DescFields.ofBits_toBits]

end Sys2Proof
end

