-- ==== Sys2Proof/Laws/State.lean ====
section
/-! SUPPORT. One lemma per field per named update of State, so that no proof unfolds a record update; the
cells of a PerButton. -/

namespace Sys2Proof

@[simp] theorem PerButton.get_set_self {α : Type} (p : PerButton α) (v : α) (i : Button) :
    (p.set v i).get i = v := by cases i <;> rfl

@[simp] theorem PerButton.get_set_other {α : Type} (p : PerButton α) (v : α) {i j : Button}
    (h : j ≠ i) : (p.set v i).get j = p.get j := by cases i <;> cases j <;> first | rfl | contradiction

theorem PerButton.ext_get {α : Type} {p q : PerButton α} (h : ∀ i, p.get i = q.get i) : p = q := by
  cases p; cases q; have hc := h .confirm; have hs := h .start; simp_all [PerButton.get]

end Sys2Proof

namespace Sys2Proof.Machine

variable (s : State)

/-! setRes -/

@[simp] theorem State.setRes_cfg (v : Word) : (s.setRes v).cfg = s.cfg := rfl
@[simp] theorem State.setRes_txbuf (v : Word) : (s.setRes v).txbuf = s.txbuf := rfl
@[simp] theorem State.setRes_dc (v : Word) : (s.setRes v).dc = s.dc := rfl
@[simp] theorem State.setRes_txbusy (v : Word) : (s.setRes v).txbusy = s.txbusy := rfl
@[simp] theorem State.setRes_rst (v : Word) : (s.setRes v).rst = s.rst := rfl
@[simp] theorem State.setRes_seqOp (v : Word) : (s.setRes v).seqOp = s.seqOp := rfl
@[simp] theorem State.setRes_seqPc (v : Word) : (s.setRes v).seqPc = s.seqPc := rfl
@[simp] theorem State.setRes_opx (v : Word) : (s.setRes v).opx = s.opx := rfl
@[simp] theorem State.setRes_opy (v : Word) : (s.setRes v).opy = s.opy := rfl
@[simp] theorem State.setRes_opv (v : Word) : (s.setRes v).opv = s.opv := rfl
@[simp] theorem State.setRes_opm (v : Word) : (s.setRes v).opm = s.opm := rfl
@[simp] theorem State.setRes_res (v : Word) : (s.setRes v).res = v := rfl
@[simp] theorem State.setRes_cnt (v : Word) : (s.setRes v).cnt = s.cnt := rfl
@[simp] theorem State.setRes_count (v : Word) : (s.setRes v).count = s.count := rfl
@[simp] theorem State.setRes_pin (v : Word) : (s.setRes v).pin = s.pin := rfl
@[simp] theorem State.setRes_db (v : Word) : (s.setRes v).db = s.db := rfl
@[simp] theorem State.setRes_flag (v : Word) : (s.setRes v).flag = s.flag := rfl
@[simp] theorem State.setRes_linkDone (v : Word) : (s.setRes v).linkDone = s.linkDone := rfl
@[simp] theorem State.setRes_linkTodo (v : Word) : (s.setRes v).linkTodo = s.linkTodo := rfl
@[simp] theorem State.setRes_ctrl (v : Word) : (s.setRes v).ctrl = s.ctrl := rfl
@[simp] theorem State.setRes_host (v : Word) : (s.setRes v).host = s.host := rfl
@[simp] theorem State.setRes_sched (v : Word) : (s.setRes v).sched = s.sched := rfl
@[simp] theorem State.setRes_draws (v : Word) : (s.setRes v).draws = s.draws := rfl

/-! setCnt -/

@[simp] theorem State.setCnt_cfg (v : Half) : (s.setCnt v).cfg = s.cfg := rfl
@[simp] theorem State.setCnt_txbuf (v : Half) : (s.setCnt v).txbuf = s.txbuf := rfl
@[simp] theorem State.setCnt_dc (v : Half) : (s.setCnt v).dc = s.dc := rfl
@[simp] theorem State.setCnt_txbusy (v : Half) : (s.setCnt v).txbusy = s.txbusy := rfl
@[simp] theorem State.setCnt_rst (v : Half) : (s.setCnt v).rst = s.rst := rfl
@[simp] theorem State.setCnt_seqOp (v : Half) : (s.setCnt v).seqOp = s.seqOp := rfl
@[simp] theorem State.setCnt_seqPc (v : Half) : (s.setCnt v).seqPc = s.seqPc := rfl
@[simp] theorem State.setCnt_opx (v : Half) : (s.setCnt v).opx = s.opx := rfl
@[simp] theorem State.setCnt_opy (v : Half) : (s.setCnt v).opy = s.opy := rfl
@[simp] theorem State.setCnt_opv (v : Half) : (s.setCnt v).opv = s.opv := rfl
@[simp] theorem State.setCnt_opm (v : Half) : (s.setCnt v).opm = s.opm := rfl
@[simp] theorem State.setCnt_res (v : Half) : (s.setCnt v).res = s.res := rfl
@[simp] theorem State.setCnt_cnt (v : Half) : (s.setCnt v).cnt = v := rfl
@[simp] theorem State.setCnt_count (v : Half) : (s.setCnt v).count = s.count := rfl
@[simp] theorem State.setCnt_pin (v : Half) : (s.setCnt v).pin = s.pin := rfl
@[simp] theorem State.setCnt_db (v : Half) : (s.setCnt v).db = s.db := rfl
@[simp] theorem State.setCnt_flag (v : Half) : (s.setCnt v).flag = s.flag := rfl
@[simp] theorem State.setCnt_linkDone (v : Half) : (s.setCnt v).linkDone = s.linkDone := rfl
@[simp] theorem State.setCnt_linkTodo (v : Half) : (s.setCnt v).linkTodo = s.linkTodo := rfl
@[simp] theorem State.setCnt_ctrl (v : Half) : (s.setCnt v).ctrl = s.ctrl := rfl
@[simp] theorem State.setCnt_host (v : Half) : (s.setCnt v).host = s.host := rfl
@[simp] theorem State.setCnt_sched (v : Half) : (s.setCnt v).sched = s.sched := rfl
@[simp] theorem State.setCnt_draws (v : Half) : (s.setCnt v).draws = s.draws := rfl

/-! setCount -/

@[simp] theorem State.setCount_cfg (v : Word) : (s.setCount v).cfg = s.cfg := rfl
@[simp] theorem State.setCount_txbuf (v : Word) : (s.setCount v).txbuf = s.txbuf := rfl
@[simp] theorem State.setCount_dc (v : Word) : (s.setCount v).dc = s.dc := rfl
@[simp] theorem State.setCount_txbusy (v : Word) : (s.setCount v).txbusy = s.txbusy := rfl
@[simp] theorem State.setCount_rst (v : Word) : (s.setCount v).rst = s.rst := rfl
@[simp] theorem State.setCount_seqOp (v : Word) : (s.setCount v).seqOp = s.seqOp := rfl
@[simp] theorem State.setCount_seqPc (v : Word) : (s.setCount v).seqPc = s.seqPc := rfl
@[simp] theorem State.setCount_opx (v : Word) : (s.setCount v).opx = s.opx := rfl
@[simp] theorem State.setCount_opy (v : Word) : (s.setCount v).opy = s.opy := rfl
@[simp] theorem State.setCount_opv (v : Word) : (s.setCount v).opv = s.opv := rfl
@[simp] theorem State.setCount_opm (v : Word) : (s.setCount v).opm = s.opm := rfl
@[simp] theorem State.setCount_res (v : Word) : (s.setCount v).res = s.res := rfl
@[simp] theorem State.setCount_cnt (v : Word) : (s.setCount v).cnt = s.cnt := rfl
@[simp] theorem State.setCount_count (v : Word) : (s.setCount v).count = v := rfl
@[simp] theorem State.setCount_pin (v : Word) : (s.setCount v).pin = s.pin := rfl
@[simp] theorem State.setCount_db (v : Word) : (s.setCount v).db = s.db := rfl
@[simp] theorem State.setCount_flag (v : Word) : (s.setCount v).flag = s.flag := rfl
@[simp] theorem State.setCount_linkDone (v : Word) : (s.setCount v).linkDone = s.linkDone := rfl
@[simp] theorem State.setCount_linkTodo (v : Word) : (s.setCount v).linkTodo = s.linkTodo := rfl
@[simp] theorem State.setCount_ctrl (v : Word) : (s.setCount v).ctrl = s.ctrl := rfl
@[simp] theorem State.setCount_host (v : Word) : (s.setCount v).host = s.host := rfl
@[simp] theorem State.setCount_sched (v : Word) : (s.setCount v).sched = s.sched := rfl
@[simp] theorem State.setCount_draws (v : Word) : (s.setCount v).draws = s.draws := rfl

/-! issue -/

@[simp] theorem State.issue_cfg (op : SeqOp) (x y v : Half) (m : Bit) :
    (s.issue op x y v m).cfg = s.cfg := rfl
@[simp] theorem State.issue_txbuf (op : SeqOp) (x y v : Half) (m : Bit) :
    (s.issue op x y v m).txbuf = s.txbuf := rfl
@[simp] theorem State.issue_dc (op : SeqOp) (x y v : Half) (m : Bit) :
    (s.issue op x y v m).dc = s.dc := rfl
@[simp] theorem State.issue_txbusy (op : SeqOp) (x y v : Half) (m : Bit) :
    (s.issue op x y v m).txbusy = s.txbusy := rfl
@[simp] theorem State.issue_rst (op : SeqOp) (x y v : Half) (m : Bit) :
    (s.issue op x y v m).rst = s.rst := rfl
@[simp] theorem State.issue_seqOp (op : SeqOp) (x y v : Half) (m : Bit) :
    (s.issue op x y v m).seqOp = op := rfl
@[simp] theorem State.issue_seqPc (op : SeqOp) (x y v : Half) (m : Bit) :
    (s.issue op x y v m).seqPc = 0 := rfl
@[simp] theorem State.issue_opx (op : SeqOp) (x y v : Half) (m : Bit) :
    (s.issue op x y v m).opx = x := rfl
@[simp] theorem State.issue_opy (op : SeqOp) (x y v : Half) (m : Bit) :
    (s.issue op x y v m).opy = y := rfl
@[simp] theorem State.issue_opv (op : SeqOp) (x y v : Half) (m : Bit) :
    (s.issue op x y v m).opv = v := rfl
@[simp] theorem State.issue_opm (op : SeqOp) (x y v : Half) (m : Bit) :
    (s.issue op x y v m).opm = m := rfl
@[simp] theorem State.issue_res (op : SeqOp) (x y v : Half) (m : Bit) :
    (s.issue op x y v m).res = s.res := rfl
@[simp] theorem State.issue_cnt (op : SeqOp) (x y v : Half) (m : Bit) :
    (s.issue op x y v m).cnt = s.cnt := rfl
@[simp] theorem State.issue_count (op : SeqOp) (x y v : Half) (m : Bit) :
    (s.issue op x y v m).count = s.count := rfl
@[simp] theorem State.issue_pin (op : SeqOp) (x y v : Half) (m : Bit) :
    (s.issue op x y v m).pin = s.pin := rfl
@[simp] theorem State.issue_db (op : SeqOp) (x y v : Half) (m : Bit) :
    (s.issue op x y v m).db = s.db := rfl
@[simp] theorem State.issue_flag (op : SeqOp) (x y v : Half) (m : Bit) :
    (s.issue op x y v m).flag = s.flag := rfl
@[simp] theorem State.issue_linkDone (op : SeqOp) (x y v : Half) (m : Bit) :
    (s.issue op x y v m).linkDone = s.linkDone := rfl
@[simp] theorem State.issue_linkTodo (op : SeqOp) (x y v : Half) (m : Bit) :
    (s.issue op x y v m).linkTodo = s.linkTodo := rfl
@[simp] theorem State.issue_ctrl (op : SeqOp) (x y v : Half) (m : Bit) :
    (s.issue op x y v m).ctrl = s.ctrl := rfl
@[simp] theorem State.issue_host (op : SeqOp) (x y v : Half) (m : Bit) :
    (s.issue op x y v m).host = s.host := rfl
@[simp] theorem State.issue_sched (op : SeqOp) (x y v : Half) (m : Bit) :
    (s.issue op x y v m).sched = s.sched := rfl
@[simp] theorem State.issue_draws (op : SeqOp) (x y v : Half) (m : Bit) :
    (s.issue op x y v m).draws = s.draws := rfl

/-! emit -/

@[simp] theorem State.emit_cfg (e : LinkEvent) : (s.emit e).cfg = s.cfg := rfl
@[simp] theorem State.emit_txbuf (e : LinkEvent) : (s.emit e).txbuf = s.txbuf := rfl
@[simp] theorem State.emit_dc (e : LinkEvent) : (s.emit e).dc = s.dc := rfl
@[simp] theorem State.emit_txbusy (e : LinkEvent) : (s.emit e).txbusy = s.txbusy := rfl
@[simp] theorem State.emit_rst (e : LinkEvent) : (s.emit e).rst = s.rst := rfl
@[simp] theorem State.emit_seqOp (e : LinkEvent) : (s.emit e).seqOp = s.seqOp := rfl
@[simp] theorem State.emit_seqPc (e : LinkEvent) : (s.emit e).seqPc = s.seqPc := rfl
@[simp] theorem State.emit_opx (e : LinkEvent) : (s.emit e).opx = s.opx := rfl
@[simp] theorem State.emit_opy (e : LinkEvent) : (s.emit e).opy = s.opy := rfl
@[simp] theorem State.emit_opv (e : LinkEvent) : (s.emit e).opv = s.opv := rfl
@[simp] theorem State.emit_opm (e : LinkEvent) : (s.emit e).opm = s.opm := rfl
@[simp] theorem State.emit_res (e : LinkEvent) : (s.emit e).res = s.res := rfl
@[simp] theorem State.emit_cnt (e : LinkEvent) : (s.emit e).cnt = s.cnt := rfl
@[simp] theorem State.emit_count (e : LinkEvent) : (s.emit e).count = s.count := rfl
@[simp] theorem State.emit_pin (e : LinkEvent) : (s.emit e).pin = s.pin := rfl
@[simp] theorem State.emit_db (e : LinkEvent) : (s.emit e).db = s.db := rfl
@[simp] theorem State.emit_flag (e : LinkEvent) : (s.emit e).flag = s.flag := rfl
@[simp] theorem State.emit_linkDone (e : LinkEvent) : (s.emit e).linkDone = s.linkDone := rfl
@[simp] theorem State.emit_linkTodo (e : LinkEvent) : (s.emit e).linkTodo = s.linkTodo ++ [e] := rfl
@[simp] theorem State.emit_ctrl (e : LinkEvent) : (s.emit e).ctrl = s.ctrl := rfl
@[simp] theorem State.emit_host (e : LinkEvent) : (s.emit e).host = s.host := rfl
@[simp] theorem State.emit_sched (e : LinkEvent) : (s.emit e).sched = s.sched := rfl
@[simp] theorem State.emit_draws (e : LinkEvent) : (s.emit e).draws = s.draws := rfl

/-! loadTx -/

@[simp] theorem State.loadTx_cfg (dc : Bit) (b : Byte) : (s.loadTx dc b).cfg = s.cfg := rfl
@[simp] theorem State.loadTx_txbuf (dc : Bit) (b : Byte) : (s.loadTx dc b).txbuf = b := rfl
@[simp] theorem State.loadTx_dc (dc : Bit) (b : Byte) : (s.loadTx dc b).dc = dc := rfl
@[simp] theorem State.loadTx_txbusy (dc : Bit) (b : Byte) : (s.loadTx dc b).txbusy = 1#1 := rfl
@[simp] theorem State.loadTx_rst (dc : Bit) (b : Byte) : (s.loadTx dc b).rst = s.rst := rfl
@[simp] theorem State.loadTx_seqOp (dc : Bit) (b : Byte) : (s.loadTx dc b).seqOp = s.seqOp := rfl
@[simp] theorem State.loadTx_seqPc (dc : Bit) (b : Byte) : (s.loadTx dc b).seqPc = s.seqPc := rfl
@[simp] theorem State.loadTx_opx (dc : Bit) (b : Byte) : (s.loadTx dc b).opx = s.opx := rfl
@[simp] theorem State.loadTx_opy (dc : Bit) (b : Byte) : (s.loadTx dc b).opy = s.opy := rfl
@[simp] theorem State.loadTx_opv (dc : Bit) (b : Byte) : (s.loadTx dc b).opv = s.opv := rfl
@[simp] theorem State.loadTx_opm (dc : Bit) (b : Byte) : (s.loadTx dc b).opm = s.opm := rfl
@[simp] theorem State.loadTx_res (dc : Bit) (b : Byte) : (s.loadTx dc b).res = s.res := rfl
@[simp] theorem State.loadTx_cnt (dc : Bit) (b : Byte) : (s.loadTx dc b).cnt = s.cnt := rfl
@[simp] theorem State.loadTx_count (dc : Bit) (b : Byte) : (s.loadTx dc b).count = s.count := rfl
@[simp] theorem State.loadTx_pin (dc : Bit) (b : Byte) : (s.loadTx dc b).pin = s.pin := rfl
@[simp] theorem State.loadTx_db (dc : Bit) (b : Byte) : (s.loadTx dc b).db = s.db := rfl
@[simp] theorem State.loadTx_flag (dc : Bit) (b : Byte) : (s.loadTx dc b).flag = s.flag := rfl
@[simp] theorem State.loadTx_linkDone (dc : Bit) (b : Byte) :
    (s.loadTx dc b).linkDone = s.linkDone := rfl
@[simp] theorem State.loadTx_linkTodo (dc : Bit) (b : Byte) :
    (s.loadTx dc b).linkTodo = s.linkTodo := rfl
@[simp] theorem State.loadTx_ctrl (dc : Bit) (b : Byte) : (s.loadTx dc b).ctrl = s.ctrl := rfl
@[simp] theorem State.loadTx_host (dc : Bit) (b : Byte) : (s.loadTx dc b).host = s.host := rfl
@[simp] theorem State.loadTx_sched (dc : Bit) (b : Byte) : (s.loadTx dc b).sched = s.sched := rfl
@[simp] theorem State.loadTx_draws (dc : Bit) (b : Byte) : (s.loadTx dc b).draws = s.draws := rfl

/-! finishTx -/

@[simp] theorem State.finishTx_cfg : s.finishTx.cfg = s.cfg := rfl
@[simp] theorem State.finishTx_txbuf : s.finishTx.txbuf = s.txbuf := rfl
@[simp] theorem State.finishTx_dc : s.finishTx.dc = s.dc := rfl
@[simp] theorem State.finishTx_txbusy : s.finishTx.txbusy = 0#1 := rfl
@[simp] theorem State.finishTx_rst : s.finishTx.rst = s.rst := rfl
@[simp] theorem State.finishTx_seqOp : s.finishTx.seqOp = s.seqOp := rfl
@[simp] theorem State.finishTx_seqPc : s.finishTx.seqPc = s.seqPc := rfl
@[simp] theorem State.finishTx_opx : s.finishTx.opx = s.opx := rfl
@[simp] theorem State.finishTx_opy : s.finishTx.opy = s.opy := rfl
@[simp] theorem State.finishTx_opv : s.finishTx.opv = s.opv := rfl
@[simp] theorem State.finishTx_opm : s.finishTx.opm = s.opm := rfl
@[simp] theorem State.finishTx_res : s.finishTx.res = s.res := rfl
@[simp] theorem State.finishTx_cnt : s.finishTx.cnt = s.cnt := rfl
@[simp] theorem State.finishTx_count : s.finishTx.count = s.count := rfl
@[simp] theorem State.finishTx_pin : s.finishTx.pin = s.pin := rfl
@[simp] theorem State.finishTx_db : s.finishTx.db = s.db := rfl
@[simp] theorem State.finishTx_flag : s.finishTx.flag = s.flag := rfl
@[simp] theorem State.finishTx_linkDone : s.finishTx.linkDone = s.linkDone := rfl
@[simp] theorem State.finishTx_linkTodo :
    s.finishTx.linkTodo = s.linkTodo ++ [.frame s.dc s.txbuf] := rfl
@[simp] theorem State.finishTx_ctrl : s.finishTx.ctrl = s.ctrl := rfl
@[simp] theorem State.finishTx_host : s.finishTx.host = s.host := rfl
@[simp] theorem State.finishTx_sched : s.finishTx.sched = s.sched := rfl
@[simp] theorem State.finishTx_draws : s.finishTx.draws = s.draws := rfl

/-! setRst -/

@[simp] theorem State.setRst_cfg (v : Bit) : (s.setRst v).cfg = s.cfg := rfl
@[simp] theorem State.setRst_txbuf (v : Bit) : (s.setRst v).txbuf = s.txbuf := rfl
@[simp] theorem State.setRst_dc (v : Bit) : (s.setRst v).dc = s.dc := rfl
@[simp] theorem State.setRst_txbusy (v : Bit) : (s.setRst v).txbusy = s.txbusy := rfl
@[simp] theorem State.setRst_rst (v : Bit) : (s.setRst v).rst = v := rfl
@[simp] theorem State.setRst_seqOp (v : Bit) : (s.setRst v).seqOp = s.seqOp := rfl
@[simp] theorem State.setRst_seqPc (v : Bit) : (s.setRst v).seqPc = s.seqPc := rfl
@[simp] theorem State.setRst_opx (v : Bit) : (s.setRst v).opx = s.opx := rfl
@[simp] theorem State.setRst_opy (v : Bit) : (s.setRst v).opy = s.opy := rfl
@[simp] theorem State.setRst_opv (v : Bit) : (s.setRst v).opv = s.opv := rfl
@[simp] theorem State.setRst_opm (v : Bit) : (s.setRst v).opm = s.opm := rfl
@[simp] theorem State.setRst_res (v : Bit) : (s.setRst v).res = s.res := rfl
@[simp] theorem State.setRst_cnt (v : Bit) : (s.setRst v).cnt = s.cnt := rfl
@[simp] theorem State.setRst_count (v : Bit) : (s.setRst v).count = s.count := rfl
@[simp] theorem State.setRst_pin (v : Bit) : (s.setRst v).pin = s.pin := rfl
@[simp] theorem State.setRst_db (v : Bit) : (s.setRst v).db = s.db := rfl
@[simp] theorem State.setRst_flag (v : Bit) : (s.setRst v).flag = s.flag := rfl
@[simp] theorem State.setRst_linkDone (v : Bit) : (s.setRst v).linkDone = s.linkDone := rfl
@[simp] theorem State.setRst_linkTodo (v : Bit) : (s.setRst v).linkTodo = s.linkTodo := rfl
@[simp] theorem State.setRst_ctrl (v : Bit) : (s.setRst v).ctrl = s.ctrl := rfl
@[simp] theorem State.setRst_host (v : Bit) : (s.setRst v).host = s.host := rfl
@[simp] theorem State.setRst_sched (v : Bit) : (s.setRst v).sched = s.sched := rfl
@[simp] theorem State.setRst_draws (v : Bit) : (s.setRst v).draws = s.draws := rfl

/-! writeFlag -/

@[simp] theorem State.writeFlag_cfg (i : Button) (v : Bit) : (s.writeFlag i v).cfg = s.cfg := rfl
@[simp] theorem State.writeFlag_txbuf (i : Button) (v : Bit) :
    (s.writeFlag i v).txbuf = s.txbuf := rfl
@[simp] theorem State.writeFlag_dc (i : Button) (v : Bit) : (s.writeFlag i v).dc = s.dc := rfl
@[simp] theorem State.writeFlag_txbusy (i : Button) (v : Bit) :
    (s.writeFlag i v).txbusy = s.txbusy := rfl
@[simp] theorem State.writeFlag_rst (i : Button) (v : Bit) : (s.writeFlag i v).rst = s.rst := rfl
@[simp] theorem State.writeFlag_seqOp (i : Button) (v : Bit) :
    (s.writeFlag i v).seqOp = s.seqOp := rfl
@[simp] theorem State.writeFlag_seqPc (i : Button) (v : Bit) :
    (s.writeFlag i v).seqPc = s.seqPc := rfl
@[simp] theorem State.writeFlag_opx (i : Button) (v : Bit) : (s.writeFlag i v).opx = s.opx := rfl
@[simp] theorem State.writeFlag_opy (i : Button) (v : Bit) : (s.writeFlag i v).opy = s.opy := rfl
@[simp] theorem State.writeFlag_opv (i : Button) (v : Bit) : (s.writeFlag i v).opv = s.opv := rfl
@[simp] theorem State.writeFlag_opm (i : Button) (v : Bit) : (s.writeFlag i v).opm = s.opm := rfl
@[simp] theorem State.writeFlag_res (i : Button) (v : Bit) : (s.writeFlag i v).res = s.res := rfl
@[simp] theorem State.writeFlag_cnt (i : Button) (v : Bit) : (s.writeFlag i v).cnt = s.cnt := rfl
@[simp] theorem State.writeFlag_count (i : Button) (v : Bit) :
    (s.writeFlag i v).count = s.count := rfl
@[simp] theorem State.writeFlag_pin (i : Button) (v : Bit) : (s.writeFlag i v).pin = s.pin := rfl
@[simp] theorem State.writeFlag_db (i : Button) (v : Bit) : (s.writeFlag i v).db = s.db := rfl
@[simp] theorem State.writeFlag_flag (i : Button) (v : Bit) :
    (s.writeFlag i v).flag = s.flag.set v i := rfl
@[simp] theorem State.writeFlag_linkDone (i : Button) (v : Bit) :
    (s.writeFlag i v).linkDone = s.linkDone := rfl
@[simp] theorem State.writeFlag_linkTodo (i : Button) (v : Bit) :
    (s.writeFlag i v).linkTodo = s.linkTodo := rfl
@[simp] theorem State.writeFlag_ctrl (i : Button) (v : Bit) : (s.writeFlag i v).ctrl = s.ctrl := rfl
@[simp] theorem State.writeFlag_host (i : Button) (v : Bit) : (s.writeFlag i v).host = s.host := rfl
@[simp] theorem State.writeFlag_sched (i : Button) (v : Bit) :
    (s.writeFlag i v).sched = s.sched := rfl
@[simp] theorem State.writeFlag_draws (i : Button) (v : Bit) :
    (s.writeFlag i v).draws = s.draws := rfl

/-! writePin -/

@[simp] theorem State.writePin_cfg (i : Button) (v : Bit) : (s.writePin i v).cfg = s.cfg := rfl
@[simp] theorem State.writePin_txbuf (i : Button) (v : Bit) :
    (s.writePin i v).txbuf = s.txbuf := rfl
@[simp] theorem State.writePin_dc (i : Button) (v : Bit) : (s.writePin i v).dc = s.dc := rfl
@[simp] theorem State.writePin_txbusy (i : Button) (v : Bit) :
    (s.writePin i v).txbusy = s.txbusy := rfl
@[simp] theorem State.writePin_rst (i : Button) (v : Bit) : (s.writePin i v).rst = s.rst := rfl
@[simp] theorem State.writePin_seqOp (i : Button) (v : Bit) :
    (s.writePin i v).seqOp = s.seqOp := rfl
@[simp] theorem State.writePin_seqPc (i : Button) (v : Bit) :
    (s.writePin i v).seqPc = s.seqPc := rfl
@[simp] theorem State.writePin_opx (i : Button) (v : Bit) : (s.writePin i v).opx = s.opx := rfl
@[simp] theorem State.writePin_opy (i : Button) (v : Bit) : (s.writePin i v).opy = s.opy := rfl
@[simp] theorem State.writePin_opv (i : Button) (v : Bit) : (s.writePin i v).opv = s.opv := rfl
@[simp] theorem State.writePin_opm (i : Button) (v : Bit) : (s.writePin i v).opm = s.opm := rfl
@[simp] theorem State.writePin_res (i : Button) (v : Bit) : (s.writePin i v).res = s.res := rfl
@[simp] theorem State.writePin_cnt (i : Button) (v : Bit) : (s.writePin i v).cnt = s.cnt := rfl
@[simp] theorem State.writePin_count (i : Button) (v : Bit) :
    (s.writePin i v).count = s.count := rfl
@[simp] theorem State.writePin_pin (i : Button) (v : Bit) :
    (s.writePin i v).pin = s.pin.set v i := rfl
@[simp] theorem State.writePin_db (i : Button) (v : Bit) : (s.writePin i v).db = s.db := rfl
@[simp] theorem State.writePin_flag (i : Button) (v : Bit) : (s.writePin i v).flag = s.flag := rfl
@[simp] theorem State.writePin_linkDone (i : Button) (v : Bit) :
    (s.writePin i v).linkDone = s.linkDone := rfl
@[simp] theorem State.writePin_linkTodo (i : Button) (v : Bit) :
    (s.writePin i v).linkTodo = s.linkTodo := rfl
@[simp] theorem State.writePin_ctrl (i : Button) (v : Bit) : (s.writePin i v).ctrl = s.ctrl := rfl
@[simp] theorem State.writePin_host (i : Button) (v : Bit) : (s.writePin i v).host = s.host := rfl
@[simp] theorem State.writePin_sched (i : Button) (v : Bit) :
    (s.writePin i v).sched = s.sched := rfl
@[simp] theorem State.writePin_draws (i : Button) (v : Bit) :
    (s.writePin i v).draws = s.draws := rfl

/-! writeDb -/

@[simp] theorem State.writeDb_cfg (i : Button) (v : DebState) : (s.writeDb i v).cfg = s.cfg := rfl
@[simp] theorem State.writeDb_txbuf (i : Button) (v : DebState) :
    (s.writeDb i v).txbuf = s.txbuf := rfl
@[simp] theorem State.writeDb_dc (i : Button) (v : DebState) : (s.writeDb i v).dc = s.dc := rfl
@[simp] theorem State.writeDb_txbusy (i : Button) (v : DebState) :
    (s.writeDb i v).txbusy = s.txbusy := rfl
@[simp] theorem State.writeDb_rst (i : Button) (v : DebState) : (s.writeDb i v).rst = s.rst := rfl
@[simp] theorem State.writeDb_seqOp (i : Button) (v : DebState) :
    (s.writeDb i v).seqOp = s.seqOp := rfl
@[simp] theorem State.writeDb_seqPc (i : Button) (v : DebState) :
    (s.writeDb i v).seqPc = s.seqPc := rfl
@[simp] theorem State.writeDb_opx (i : Button) (v : DebState) : (s.writeDb i v).opx = s.opx := rfl
@[simp] theorem State.writeDb_opy (i : Button) (v : DebState) : (s.writeDb i v).opy = s.opy := rfl
@[simp] theorem State.writeDb_opv (i : Button) (v : DebState) : (s.writeDb i v).opv = s.opv := rfl
@[simp] theorem State.writeDb_opm (i : Button) (v : DebState) : (s.writeDb i v).opm = s.opm := rfl
@[simp] theorem State.writeDb_res (i : Button) (v : DebState) : (s.writeDb i v).res = s.res := rfl
@[simp] theorem State.writeDb_cnt (i : Button) (v : DebState) : (s.writeDb i v).cnt = s.cnt := rfl
@[simp] theorem State.writeDb_count (i : Button) (v : DebState) :
    (s.writeDb i v).count = s.count := rfl
@[simp] theorem State.writeDb_pin (i : Button) (v : DebState) : (s.writeDb i v).pin = s.pin := rfl
@[simp] theorem State.writeDb_db (i : Button) (v : DebState) :
    (s.writeDb i v).db = s.db.set v i := rfl
@[simp] theorem State.writeDb_flag (i : Button) (v : DebState) :
    (s.writeDb i v).flag = s.flag := rfl
@[simp] theorem State.writeDb_linkDone (i : Button) (v : DebState) :
    (s.writeDb i v).linkDone = s.linkDone := rfl
@[simp] theorem State.writeDb_linkTodo (i : Button) (v : DebState) :
    (s.writeDb i v).linkTodo = s.linkTodo := rfl
@[simp] theorem State.writeDb_ctrl (i : Button) (v : DebState) :
    (s.writeDb i v).ctrl = s.ctrl := rfl
@[simp] theorem State.writeDb_host (i : Button) (v : DebState) :
    (s.writeDb i v).host = s.host := rfl
@[simp] theorem State.writeDb_sched (i : Button) (v : DebState) :
    (s.writeDb i v).sched = s.sched := rfl
@[simp] theorem State.writeDb_draws (i : Button) (v : DebState) :
    (s.writeDb i v).draws = s.draws := rfl

/-! popEvent -/

@[simp] theorem State.popEvent_cfg (e : LinkEvent) (rest : List LinkEvent) :
    (s.popEvent e rest).cfg = s.cfg := rfl
@[simp] theorem State.popEvent_txbuf (e : LinkEvent) (rest : List LinkEvent) :
    (s.popEvent e rest).txbuf = s.txbuf := rfl
@[simp] theorem State.popEvent_dc (e : LinkEvent) (rest : List LinkEvent) :
    (s.popEvent e rest).dc = s.dc := rfl
@[simp] theorem State.popEvent_txbusy (e : LinkEvent) (rest : List LinkEvent) :
    (s.popEvent e rest).txbusy = s.txbusy := rfl
@[simp] theorem State.popEvent_rst (e : LinkEvent) (rest : List LinkEvent) :
    (s.popEvent e rest).rst = s.rst := rfl
@[simp] theorem State.popEvent_seqOp (e : LinkEvent) (rest : List LinkEvent) :
    (s.popEvent e rest).seqOp = s.seqOp := rfl
@[simp] theorem State.popEvent_seqPc (e : LinkEvent) (rest : List LinkEvent) :
    (s.popEvent e rest).seqPc = s.seqPc := rfl
@[simp] theorem State.popEvent_opx (e : LinkEvent) (rest : List LinkEvent) :
    (s.popEvent e rest).opx = s.opx := rfl
@[simp] theorem State.popEvent_opy (e : LinkEvent) (rest : List LinkEvent) :
    (s.popEvent e rest).opy = s.opy := rfl
@[simp] theorem State.popEvent_opv (e : LinkEvent) (rest : List LinkEvent) :
    (s.popEvent e rest).opv = s.opv := rfl
@[simp] theorem State.popEvent_opm (e : LinkEvent) (rest : List LinkEvent) :
    (s.popEvent e rest).opm = s.opm := rfl
@[simp] theorem State.popEvent_res (e : LinkEvent) (rest : List LinkEvent) :
    (s.popEvent e rest).res = s.res := rfl
@[simp] theorem State.popEvent_cnt (e : LinkEvent) (rest : List LinkEvent) :
    (s.popEvent e rest).cnt = s.cnt := rfl
@[simp] theorem State.popEvent_count (e : LinkEvent) (rest : List LinkEvent) :
    (s.popEvent e rest).count = s.count := rfl
@[simp] theorem State.popEvent_pin (e : LinkEvent) (rest : List LinkEvent) :
    (s.popEvent e rest).pin = s.pin := rfl
@[simp] theorem State.popEvent_db (e : LinkEvent) (rest : List LinkEvent) :
    (s.popEvent e rest).db = s.db := rfl
@[simp] theorem State.popEvent_flag (e : LinkEvent) (rest : List LinkEvent) :
    (s.popEvent e rest).flag = s.flag := rfl
@[simp] theorem State.popEvent_linkDone (e : LinkEvent) (rest : List LinkEvent) :
    (s.popEvent e rest).linkDone = s.linkDone ++ [e] := rfl
@[simp] theorem State.popEvent_linkTodo (e : LinkEvent) (rest : List LinkEvent) :
    (s.popEvent e rest).linkTodo = rest := rfl
@[simp] theorem State.popEvent_ctrl (e : LinkEvent) (rest : List LinkEvent) :
    (s.popEvent e rest).ctrl = s.ctrl := rfl
@[simp] theorem State.popEvent_host (e : LinkEvent) (rest : List LinkEvent) :
    (s.popEvent e rest).host = s.host := rfl
@[simp] theorem State.popEvent_sched (e : LinkEvent) (rest : List LinkEvent) :
    (s.popEvent e rest).sched = s.sched := rfl
@[simp] theorem State.popEvent_draws (e : LinkEvent) (rest : List LinkEvent) :
    (s.popEvent e rest).draws = s.draws := rfl

/-! receiveCommand -/

@[simp] theorem State.receiveCommand_cfg (sym : LinkCmd) : (s.receiveCommand sym).cfg = s.cfg := rfl
@[simp] theorem State.receiveCommand_txbuf (sym : LinkCmd) :
    (s.receiveCommand sym).txbuf = s.txbuf := rfl
@[simp] theorem State.receiveCommand_dc (sym : LinkCmd) : (s.receiveCommand sym).dc = s.dc := rfl
@[simp] theorem State.receiveCommand_txbusy (sym : LinkCmd) :
    (s.receiveCommand sym).txbusy = s.txbusy := rfl
@[simp] theorem State.receiveCommand_rst (sym : LinkCmd) : (s.receiveCommand sym).rst = s.rst := rfl
@[simp] theorem State.receiveCommand_seqOp (sym : LinkCmd) :
    (s.receiveCommand sym).seqOp = s.seqOp := rfl
@[simp] theorem State.receiveCommand_seqPc (sym : LinkCmd) :
    (s.receiveCommand sym).seqPc = s.seqPc := rfl
@[simp] theorem State.receiveCommand_opx (sym : LinkCmd) : (s.receiveCommand sym).opx = s.opx := rfl
@[simp] theorem State.receiveCommand_opy (sym : LinkCmd) : (s.receiveCommand sym).opy = s.opy := rfl
@[simp] theorem State.receiveCommand_opv (sym : LinkCmd) : (s.receiveCommand sym).opv = s.opv := rfl
@[simp] theorem State.receiveCommand_opm (sym : LinkCmd) : (s.receiveCommand sym).opm = s.opm := rfl
@[simp] theorem State.receiveCommand_res (sym : LinkCmd) : (s.receiveCommand sym).res = s.res := rfl
@[simp] theorem State.receiveCommand_cnt (sym : LinkCmd) : (s.receiveCommand sym).cnt = s.cnt := rfl
@[simp] theorem State.receiveCommand_count (sym : LinkCmd) :
    (s.receiveCommand sym).count = s.count := rfl
@[simp] theorem State.receiveCommand_pin (sym : LinkCmd) : (s.receiveCommand sym).pin = s.pin := rfl
@[simp] theorem State.receiveCommand_db (sym : LinkCmd) : (s.receiveCommand sym).db = s.db := rfl
@[simp] theorem State.receiveCommand_flag (sym : LinkCmd) :
    (s.receiveCommand sym).flag = s.flag := rfl
@[simp] theorem State.receiveCommand_linkDone (sym : LinkCmd) :
    (s.receiveCommand sym).linkDone = s.linkDone := rfl
@[simp] theorem State.receiveCommand_linkTodo (sym : LinkCmd) :
    (s.receiveCommand sym).linkTodo = s.linkTodo := rfl
@[simp] theorem State.receiveCommand_ctrl (sym : LinkCmd) :
    (s.receiveCommand sym).ctrl = (s.ctrl.track s.cfg (.frame 0#1 (s.cfg.cmdByte sym))).command sym := rfl
@[simp] theorem State.receiveCommand_host (sym : LinkCmd) :
    (s.receiveCommand sym).host = s.host := rfl
@[simp] theorem State.receiveCommand_sched (sym : LinkCmd) :
    (s.receiveCommand sym).sched = s.sched := rfl
@[simp] theorem State.receiveCommand_draws (sym : LinkCmd) :
    (s.receiveCommand sym).draws = s.draws := rfl

/-! receiveData -/

@[simp] theorem State.receiveData_cfg (b : Byte) : (s.receiveData b).cfg = s.cfg := rfl
@[simp] theorem State.receiveData_txbuf (b : Byte) : (s.receiveData b).txbuf = s.txbuf := rfl
@[simp] theorem State.receiveData_dc (b : Byte) : (s.receiveData b).dc = s.dc := rfl
@[simp] theorem State.receiveData_txbusy (b : Byte) : (s.receiveData b).txbusy = s.txbusy := rfl
@[simp] theorem State.receiveData_rst (b : Byte) : (s.receiveData b).rst = s.rst := rfl
@[simp] theorem State.receiveData_seqOp (b : Byte) : (s.receiveData b).seqOp = s.seqOp := rfl
@[simp] theorem State.receiveData_seqPc (b : Byte) : (s.receiveData b).seqPc = s.seqPc := rfl
@[simp] theorem State.receiveData_opx (b : Byte) : (s.receiveData b).opx = s.opx := rfl
@[simp] theorem State.receiveData_opy (b : Byte) : (s.receiveData b).opy = s.opy := rfl
@[simp] theorem State.receiveData_opv (b : Byte) : (s.receiveData b).opv = s.opv := rfl
@[simp] theorem State.receiveData_opm (b : Byte) : (s.receiveData b).opm = s.opm := rfl
@[simp] theorem State.receiveData_res (b : Byte) : (s.receiveData b).res = s.res := rfl
@[simp] theorem State.receiveData_cnt (b : Byte) : (s.receiveData b).cnt = s.cnt := rfl
@[simp] theorem State.receiveData_count (b : Byte) : (s.receiveData b).count = s.count := rfl
@[simp] theorem State.receiveData_pin (b : Byte) : (s.receiveData b).pin = s.pin := rfl
@[simp] theorem State.receiveData_db (b : Byte) : (s.receiveData b).db = s.db := rfl
@[simp] theorem State.receiveData_flag (b : Byte) : (s.receiveData b).flag = s.flag := rfl
@[simp] theorem State.receiveData_linkDone (b : Byte) :
    (s.receiveData b).linkDone = s.linkDone := rfl
@[simp] theorem State.receiveData_linkTodo (b : Byte) :
    (s.receiveData b).linkTodo = s.linkTodo := rfl
@[simp] theorem State.receiveData_ctrl (b : Byte) :
    (s.receiveData b).ctrl = (s.ctrl.track s.cfg (.frame 1#1 b)).data s.cfg b := rfl
@[simp] theorem State.receiveData_host (b : Byte) : (s.receiveData b).host = s.host := rfl
@[simp] theorem State.receiveData_sched (b : Byte) : (s.receiveData b).sched = s.sched := rfl
@[simp] theorem State.receiveData_draws (b : Byte) : (s.receiveData b).draws = s.draws := rfl

end Sys2Proof.Machine
end

