-- ==== Sys2Proof/Laws/Ops.lean ====
section
/-! SUPPORT. One lemma per shared operation that says once everything it can do. -/

namespace Sys2Proof.Machine

variable {s t : State}

theorem State.portFree_iff : s.portFree = true ↔ s.seqOp = .none := by simp [State.portFree]

theorem State.txFree_iff : s.txFree = true ↔ s.txbusy = 0#1 := by simp [State.txFree]

theorem State.txBusy_iff : s.txFree = false ↔ s.txbusy = 1#1 := by
  obtain h | h := Bit.eq_zero_or_one s.txbusy <;> simp [State.txFree, h]

/-- The issue step at a free port. -/
theorem State.onPort_free {f : State → State} (h : s.seqOp = .none) : s.onPort f = .next (f s) := by
  simp [State.onPort, State.portFree, h]

/-- A closed port: nothing happens. -/
theorem State.onPort_closed {f : State → State} (h : s.seqOp ≠ .none) : s.onPort f = .next s := by
  simp [State.onPort, State.portFree, h]

/-- SEQ's position after a micro-event: it moves on, or the operation completes. -/
theorem State.advanceSeq_cases (s : State) (n : Nat) :
    (s.seqPc + 1 < n ∧ s.advanceSeq n = { s with seqPc := s.seqPc + 1 }) ∨
    (n ≤ s.seqPc + 1 ∧ s.advanceSeq n = { s with seqOp := .none, seqPc := 0, res := 0#32 }) := by
  unfold State.advanceSeq
  split_ifs with h
  · exact .inl ⟨h, rfl⟩
  · exact .inr ⟨by omega, rfl⟩

theorem State.advanceSeq_of_lt {n : Nat} (h : s.seqPc + 1 < n) :
    s.advanceSeq n = { s with seqPc := s.seqPc + 1 } := if_pos h

theorem State.advanceSeq_of_le {n : Nat} (h : n ≤ s.seqPc + 1) :
    s.advanceSeq n = { s with seqOp := .none, seqPc := 0, res := 0#32 } := if_neg (by omega)

/-- SEQ has a next micro-event iff TXBUSY = 0 and its list has one at SEQ.pc. -/
theorem State.nextMicro_eq_some {m : Micro} :
    s.nextMicro = some m ↔ s.txbusy = 0#1 ∧ s.ucode[s.seqPc]? = some m := by
  unfold State.nextMicro
  by_cases h : s.txFree = true
  · simp [h, State.txFree_iff.1 h]
  · simp [h, mt State.txFree_iff.2 h]

/-- A turn of SEQ: it performs the micro-event at SEQ.pc, or it has no step. -/
theorem State.seqStep_cases (s : State) :
    (∃ m, s.txbusy = 0#1 ∧ s.ucode[s.seqPc]? = some m ∧
      s.seqStep = (s.perform m).advanceSeq s.ucode.length) ∨
    (s.nextMicro = none ∧ s.seqStep = s) := by
  cases h : s.nextMicro with
  | none => exact .inr ⟨rfl, by simp [State.seqStep, h]⟩
  | some m =>
    obtain ⟨hb, hm⟩ := State.nextMicro_eq_some.1 h
    exact .inl ⟨m, hb, hm, by simp [State.seqStep, h]⟩

/-- A turn of TX. -/
theorem State.txStep_cases (s : State) :
    (s.txbusy = 1#1 ∧ s.txStep = s.finishTx) ∨ (s.txbusy = 0#1 ∧ s.txStep = s) := by
  unfold State.txStep
  split_ifs with h
  · exact .inr ⟨State.txFree_iff.1 h, rfl⟩
  · exact .inl ⟨State.txBusy_iff.1 (by simpa using h), rfl⟩

/-- A turn of DB[i]. -/
theorem State.dbStep_cases (s : State) (i : Button) :
    (s.db.get i = .settle ∧ s.pin.get i = 0#1 ∧ s.dbStep i = (s.writeFlag i 1#1).writeDb i .idle) ∨
    (s.db.get i = .settle ∧ s.pin.get i ≠ 0#1 ∧ s.dbStep i = s.writeDb i .idle) ∨
    (s.db.get i = .idle ∧ s.dbStep i = s) := by
  unfold State.dbStep State.leaveEvent State.latchFlag
  cases h : s.db.get i
  · simp
  · by_cases hp : s.pin.get i = 0#1 <;> simp [hp]

/-- PinFall(i). -/
theorem State.pinFallStep_cases (s : State) (i : Button) :
    (s.pin.get i = 1#1 ∧ s.db.get i = .idle ∧
      s.pinFallStep i = (s.writePin i 0#1).writeDb i .settle) ∨
    (s.pin.get i = 1#1 ∧ s.db.get i = .settle ∧ s.pinFallStep i = s.writePin i 0#1) ∨
    (s.pin.get i ≠ 1#1 ∧ s.pinFallStep i = s) := by
  unfold State.pinFallStep State.enterEvent
  by_cases hp : s.pin.get i = 1#1
  · cases h : s.db.get i <;> simp [hp, h]
  · simp [hp]

/-- PinRise(i). -/
theorem State.pinRiseStep_cases (s : State) (i : Button) :
    (s.pin.get i = 0#1 ∧ s.pinRiseStep i = s.writePin i 1#1) ∨
    (s.pin.get i ≠ 0#1 ∧ s.pinRiseStep i = s) := by
  unfold State.pinRiseStep
  by_cases hp : s.pin.get i = 0#1 <;> simp [hp]

/-- The scheduling choice touches only `sched` and `draws`. -/
theorem State.consumeChoice_eq (s : State) :
    s.consumeChoice =
      { s with sched := s.consumeChoice.sched, draws := s.consumeChoice.draws } := by
  unfold State.consumeChoice
  cases s.sched <;> rfl

theorem State.nextAgent_cons {a : Agent} {rest : List Agent} (h : s.sched = a :: rest) :
    s.nextAgent = a := by simp [State.nextAgent, h]

theorem State.consumeChoice_cons {a : Agent} {rest : List Agent} (h : s.sched = a :: rest) :
    s.consumeChoice = { s with sched := rest } := by simp [State.consumeChoice, h]

/-- A step with a scheduled agent is a turn of that agent. -/
theorem step_cons {a : Agent} {rest : List Agent} (h : s.sched = a :: rest) :
    step s = ({ s with sched := rest } : State).agentStep a := by
  simp [step, State.oneStep, State.nextAgent_cons h, State.consumeChoice_cons h]

/-- What a command or data frame does to CTRL's place in `E`: only `k` and UNDEFINED move. -/
theorem Ctrl.track_eq (cfg : Cfg) (e : LinkEvent) (c : Ctrl) :
    c.track cfg e = { c with k := (c.track cfg e).k, undef := (c.track cfg e).undef } := by
  unfold Ctrl.track
  split
  · rfl
  · split_ifs <;> rfl

/-- The row of a command symbol receives that command. -/
theorem exec_instr (sym : LinkCmd) (s : State) : exec sym.instr s = .next (s.receiveCommand sym) := by
  cases sym <;> rfl

/-! What each host operation does at the port. -/

theorem exec_send (b : Byte) (dc : Bit) (s : State) :
    exec (.send b dc) s = s.onPort (fun s => s.issue .send 0#16 0#16 (byteOperand b) dc) := rfl

theorem exec_init (s : State) :
    exec .init s = s.onPort (fun s => s.issue .init 0#16 0#16 0#16 0#1) := rfl

theorem exec_clear (c : Half) (s : State) :
    exec (.clear c) s = s.onPort (fun s => s.issue .clear 0#16 0#16 c 0#1) := rfl

theorem exec_setPixel (x y c : Half) (s : State) :
    exec (.setPixel x y c) s = s.onPort (fun s => s.issue .setPixel x y c 0#1) := rfl

theorem exec_tmrrd (s : State) : exec .tmrrd s = s.onPort (fun s => s.setRes (zextHalf s.cnt)) := rfl

theorem exec_elapsed (x y : Half) (s : State) :
    exec (.elapsed x y) s = s.onPort (fun s => s.setRes (zextHalf (elapsedTicks x y))) := rfl

theorem exec_cntrst (s : State) :
    exec .cntrst s = s.onPort (fun s => (s.setCount 0#32).setRes 0#32) := rfl

theorem exec_cntrd (s : State) : exec .cntrd s = s.onPort (fun s => s.setRes s.count) := rfl

theorem exec_flagrd (i : Button) (s : State) :
    exec (.flagrd i) s = s.onPort (fun s => s.setRes (zextBit (s.flag.get i))) := rfl

theorem exec_flagclr (i : Button) (s : State) :
    exec (.flagclr i) s = s.onPort (fun s => (s.writeFlag i 0#1).setRes 0#32) := rfl

theorem exec_flagrc (i : Button) (s : State) :
    exec (.flagrc i) s =
      s.onPort (fun s => (s.setRes (zextBit (s.flag.get i))).writeFlag i 0#1) := rfl

theorem exec_linkData (b : Byte) (s : State) : exec (.linkData b) s = .next (s.receiveData b) := rfl

end Sys2Proof.Machine
end

