-- ==== Sys2Proof/Laws/Agents.lean ====
section
/-! SUPPORT. Inversion: everything an operation at the port can do, and everything a turn of HOST can do. -/

namespace Sys2Proof.Machine

variable {s t : State}

/-- What the issue step of an operation makes of a state at a free port: it issues a display operation, or sets
RES; CNTRST also clears COUNT, FLAGCLR and FLAGRC also clear their flag (30_encoding.md rule R93). -/
inductive IssueEffect (i : Instr) (s : State) : State → Prop where
  | issue (op : SeqOp) (x y v : Half) (m : Bit) (h : op ≠ .none) : IssueEffect i s (s.issue op x y v m)
  | setRes (v : Word) : IssueEffect i s (s.setRes v)
  | clearCount (h : i = .cntrst) : IssueEffect i s ((s.setCount 0#32).setRes 0#32)
  | clearFlag (j : Button) (v : Word) (h : i = .flagclr j ∨ i = .flagrc j) :
      IssueEffect i s ((s.setRes v).writeFlag j 0#1)

/-- An instruction that a descriptor decodes to is an issue step at the port. -/
theorem exec_of_decode {d : Descriptor} {i : Instr} (hd : decode d = some i) :
    ∃ f : State → State, (∀ s, exec i s = s.onPort f) ∧ ∀ s, IssueEffect i s (f s) := by
  cases row_of_decode hd with
  | send => exact ⟨_, exec_send _ _, fun s => .issue _ _ _ _ _ SeqOp.noConfusion⟩
  | init => exact ⟨_, exec_init, fun s => .issue _ _ _ _ _ SeqOp.noConfusion⟩
  | clear => exact ⟨_, exec_clear _, fun s => .issue _ _ _ _ _ SeqOp.noConfusion⟩
  | setPixel => exact ⟨_, exec_setPixel _ _ _, fun s => .issue _ _ _ _ _ SeqOp.noConfusion⟩
  | tmrrd => exact ⟨_, exec_tmrrd, fun s => .setRes _⟩
  | elapsed => exact ⟨_, exec_elapsed _ _, fun s => .setRes _⟩
  | cntrst => exact ⟨_, exec_cntrst, fun s => .clearCount rfl⟩
  | cntrd => exact ⟨_, exec_cntrd, fun s => .setRes _⟩
  | flagrd => exact ⟨_, exec_flagrd _, fun s => .setRes _⟩
  | flagclr => exact ⟨_, exec_flagclr _, fun s => .clearFlag _ 0#32 (.inl rfl)⟩
  | flagrc => exact ⟨_, exec_flagrc _, fun s => .clearFlag _ _ (.inr rfl)⟩

/-- Everything an operation that a descriptor decodes to can do: nothing at a closed port, its issue step at a
free one. -/
theorem exec_decoded_cases {d : Descriptor} {i : Instr} (hd : decode d = some i)
    (h : exec i s = .next t) :
    (s.seqOp ≠ .none ∧ t = s) ∨ (s.seqOp = .none ∧ IssueEffect i s t) := by
  obtain ⟨f, hf, he⟩ := exec_of_decode hd
  rw [hf] at h
  by_cases hs : s.seqOp = .none
  · rw [State.onPort_free hs] at h
    exact .inr ⟨hs, Host.Outcome.next.inj h ▸ he s⟩
  · rw [State.onPort_closed hs] at h
    exact .inl ⟨hs, (Host.Outcome.next.inj h).symm⟩

/-- Presenting a descriptor that yields a next state runs the instruction it decodes to. -/
theorem State.present_next {d : Descriptor} (h : s.present d = .next t) :
    ∃ i, decode d = some i ∧ exec i s = .next t := by
  unfold State.present at h
  split at h
  · next i hi => exact ⟨i, hi, h⟩
  · cases h

/-- Everything a turn of HOST can do, up to its own variables: nothing, or an operation at a free port. -/
theorem State.hostStep_cases (h : s.hostStep = .next t) :
    (∃ g n, (s.seqOp ≠ .none → g = s.host ∧ n = s.draws) ∧ t = { s with host := g, draws := n }) ∨
    (s.seqOp = .none ∧ ∃ g n d i, decode d = some i ∧
      exec i { s with host := g, draws := n } = .next t) := by
  unfold State.hostStep at h
  split at h
  · next hp =>
    have hs := State.portFree_iff.1 hp
    split at h
    · exact .inl ⟨s.host, s.draws, fun _ => ⟨rfl, rfl⟩, (Host.Outcome.next.inj h).symm⟩
    · obtain ⟨i, hi, he⟩ := State.present_next h
      exact .inr ⟨hs, _, s.draws, _, i, hi, he⟩
    · next e _ =>
      unfold State.engineTurn at h
      split at h
      · exact .inl ⟨_, _, fun hn => absurd hs hn, (Host.Outcome.next.inj h).symm⟩
      · unfold State.presentInstr at h
        split at h
        · obtain ⟨i, hi, he⟩ := State.present_next h
          exact .inr ⟨hs, _, _, _, i, hi, he⟩
        · exact .inl ⟨_, _, fun hn => absurd hs hn, (Host.Outcome.next.inj h).symm⟩
  · exact .inl ⟨s.host, s.draws, fun _ => ⟨rfl, rfl⟩, (Host.Outcome.next.inj h).symm⟩

/-- A turn of CTRL always answers, and touches only LINK's split and the controller. -/
theorem State.ctrlStep_next (s : State) :
    ∃ done todo c, s.ctrlStep = .next { s with linkDone := done, linkTodo := todo, ctrl := c } := by
  unfold State.ctrlStep
  split
  · exact ⟨s.linkDone, s.linkTodo, s.ctrl, rfl⟩
  · next dc b rest _ =>
    unfold State.receiveFrame decodeFrame
    split_ifs
    · exact ⟨_, _, _, rfl⟩
    · cases (s.popEvent (.frame dc b) rest).cfg.symbolOf (frameByte (frameBits dc b)) with
      | none => exact ⟨_, _, _, rfl⟩
      | some sym => exact ⟨_, _, _, exec_instr sym _⟩
  · exact ⟨_, _, _, rfl⟩
  · exact ⟨_, _, _, rfl⟩
  · exact ⟨_, _, _, rfl⟩

/-- Nothing is left to present and the display side is idle. -/
abbrev State.Idle (s : State) : Prop := s.host = .queue [] ∧ s.seqOp = .none ∧ s.txbusy = 0#1

theorem State.Idle.nextMicro (h : s.Idle) : s.nextMicro = none := by
  simp [State.nextMicro, State.ucode, Machine.ucode, h.2.1]

/-- In an idle state every agent's turn answers, and the state stays idle. -/
theorem State.Idle.agentStep (h : s.Idle) (a : Agent) : ∃ t, s.agentStep a = .next t ∧ t.Idle := by
  cases a with
  | host => exact ⟨s, by simp [State.agentStep, State.hostStep, State.portFree, h.1, h.2.1], h⟩
  | seq => exact ⟨s, by simp [State.agentStep, State.seqStep, h.nextMicro], h⟩
  | tx => exact ⟨s, by simp [State.agentStep, State.txStep, State.txFree, h.2.2], h⟩
  | clk => exact ⟨_, rfl, h⟩
  | tick => exact ⟨_, rfl, h⟩
  | db i =>
    refine ⟨_, rfl, ?_⟩
    rcases s.dbStep_cases i with ⟨-, -, e⟩ | ⟨-, -, e⟩ | ⟨-, e⟩ <;> rw [e] <;> exact h
  | pinFall i =>
    refine ⟨_, rfl, ?_⟩
    rcases s.pinFallStep_cases i with ⟨-, -, e⟩ | ⟨-, -, e⟩ | ⟨-, e⟩ <;> rw [e] <;> exact h
  | pinRise i =>
    refine ⟨_, rfl, ?_⟩
    rcases s.pinRiseStep_cases i with ⟨-, e⟩ | ⟨-, e⟩ <;> rw [e] <;> exact h
  | ctrl =>
    obtain ⟨done, todo, c, e⟩ := s.ctrlStep_next
    exact ⟨_, e, h⟩

/-- An idle state steps to an idle state, whichever agent moves. -/
theorem State.Idle.step (h : s.Idle) : ∃ t, step s = .next t ∧ t.Idle := by
  refine State.Idle.agentStep ?_ s.nextAgent
  rw [State.consumeChoice_eq]
  exact h

end Sys2Proof.Machine
end

