-- ==== Sys2Proof/Laws/Gram.lean ====
section
/-! SUPPORT. The laws of frame memory: a read after a write to the same cell gives the value written, a
write leaves every other cell alone, and a write keeps the canonical form. -/

namespace Sys2Proof.Machine

theorem Gram.read_write_same (g : Gram) (a : Nat) (v : Half) : (g.write a v).read a = some v := by
  induction g with
  | nil => simp [Gram.write, Gram.read]
  | cons p g ih =>
    obtain ⟨k, w⟩ := p
    simp only [Gram.write]
    split_ifs with h1 h2
    · simp [Gram.read]
    · simp [Gram.read]
    · simp [Gram.read, h2, ih]

theorem Gram.read_write_other (g : Gram) {a b : Nat} (v : Half) (h : b ≠ a) :
    (g.write a v).read b = g.read b := by
  induction g with
  | nil => simp [Gram.write, Gram.read, h]
  | cons p g ih =>
    obtain ⟨k, w⟩ := p
    simp only [Gram.write]
    split_ifs with h1 h2
    · simp [Gram.read, h]
    · subst h2; simp [Gram.read, h]
    · simp [Gram.read, ih]

/-- A cell of the written memory is the one written or one that was there. -/
theorem Gram.mem_write {g : Gram} {a : Nat} {v : Half} {p : Nat × Half} (h : p ∈ g.write a v) :
    p = (a, v) ∨ p ∈ g := by
  induction g with
  | nil => simpa [Gram.write] using h
  | cons q g ih =>
    obtain ⟨k, w⟩ := q
    simp only [Gram.write] at h
    split_ifs at h with h1 h2
    · simpa using h
    · simp only [List.mem_cons] at h ⊢; tauto
    · simp only [List.mem_cons] at h ⊢
      rcases h with h | h
      · tauto
      · have := ih h; tauto

theorem Gram.write_wf {g : Gram} (h : g.wf) (a : Nat) (v : Half) : (g.write a v).wf := by
  induction g with
  | nil => simp [Gram.write, Gram.wf]
  | cons q g ih =>
    obtain ⟨k, w⟩ := q
    obtain ⟨hk, hg⟩ := List.pairwise_cons.1 h
    simp only [Gram.write]
    split_ifs with h1 h2
    · refine List.pairwise_cons.2 ⟨fun p hp => ?_, h⟩
      rcases List.mem_cons.1 hp with rfl | hp
      · exact h1
      · exact lt_trans h1 (hk p hp)
    · subst h2; exact List.pairwise_cons.2 ⟨hk, hg⟩
    · refine List.pairwise_cons.2 ⟨fun p hp => ?_, ih hg⟩
      rcases Gram.mem_write hp with rfl | hp
      · simp only; omega
      · exact hk p hp

/-- Distinct cells have distinct keys. -/
theorem gramKey_injective {c r c' r' : Half} (h : gramKey c r = gramKey c' r') : c = c' ∧ r = r' := by
  have hc := c.isLt
  have hc' := c'.isLt
  simp only [gramKey] at h
  exact ⟨BitVec.eq_of_toNat_eq (by omega), BitVec.eq_of_toNat_eq (by omega)⟩

end Sys2Proof.Machine
end

