-- ==== Sys2Proof/Laws/PerInstr.lean ====
section
/-! SUPPORT. Per-instruction laws: the family SelectsRow says that the word of an instruction selects its own
row of spec/opcode_table.json, `word & mask = match` (30_encoding.md rules R94, R100). -/

namespace Sys2Proof.Laws

/-- `match` and `mask` of the instruction's row, as the table prints them: a 64-bit row, or a 9-bit one. -/
def tableRow : Instr → (Descriptor × Descriptor) ⊕ (BitVec 9 × BitVec 9)
  | .send _ _ => .inl (0x0100000000000000#64, 0xFFFEFFFFFFFFFF00#64)
  | .init => .inl (0x0200000000000000#64, 0xFFFFFFFFFFFFFFFF#64)
  | .clear _ => .inl (0x0300000000000000#64, 0xFFFFFFFFFFFF0000#64)
  | .setPixel _ _ _ => .inl (0x0400000000000000#64, 0xFFFF000000000000#64)
  | .tmrrd => .inl (0x1000000000000000#64, 0xFFFFFFFFFFFFFFFF#64)
  | .elapsed _ _ => .inl (0x1100000000000000#64, 0xFFFF00000000FFFF#64)
  | .cntrst => .inl (0x1200000000000000#64, 0xFFFFFFFFFFFFFFFF#64)
  | .cntrd => .inl (0x1300000000000000#64, 0xFFFFFFFFFFFFFFFF#64)
  | .flagrd _ => .inl (0x2000000000000000#64, 0xFFFEFFFFFFFFFFFF#64)
  | .flagclr _ => .inl (0x2100000000000000#64, 0xFFFEFFFFFFFFFFFF#64)
  | .flagrc _ => .inl (0x2200000000000000#64, 0xFFFEFFFFFFFFFFFF#64)
  | .linkSlpout => .inr (0x011#9, 0x1FF#9)
  | .linkGamset => .inr (0x026#9, 0x1FF#9)
  | .linkPwctr => .inr (0x0B1#9, 0x1FF#9)
  | .linkStba => .inr (0x0C0#9, 0x1FF#9)
  | .linkColmod => .inr (0x03A#9, 0x1FF#9)
  | .linkMadctl => .inr (0x036#9, 0x1FF#9)
  | .linkNoron => .inr (0x013#9, 0x1FF#9)
  | .linkDispon => .inr (0x029#9, 0x1FF#9)
  | .linkCaset => .inr (0x02A#9, 0x1FF#9)
  | .linkRaset => .inr (0x02B#9, 0x1FF#9)
  | .linkRamwr => .inr (0x02C#9, 0x1FF#9)
  | .linkData _ => .inr (0x100#9, 0x100#9)

/-- A word selects a row of its own width. -/
def Selects : Encoded → (Descriptor × Descriptor) ⊕ (BitVec 9 × BitVec 9) → Bool
  | .descriptor d, .inl row => d &&& row.2 = row.1
  | .frame f, .inr row => f &&& row.2 = row.1
  | .descriptor _, .inr _ => false
  | .frame _, .inl _ => false

theorem ofBits_and (a b : Descriptor) : DescFields.ofBits (a &&& b) =
    { opc := (DescFields.ofBits a).opc &&& (DescFields.ofBits b).opc,
      z7 := (DescFields.ofBits a).z7 &&& (DescFields.ofBits b).z7,
      m := (DescFields.ofBits a).m &&& (DescFields.ofBits b).m,
      x := (DescFields.ofBits a).x &&& (DescFields.ofBits b).x,
      y := (DescFields.ofBits a).y &&& (DescFields.ofBits b).y,
      v := (DescFields.ofBits a).v &&& (DescFields.ofBits b).v } := by
  simp [DescFields.ofBits, BitVec.extractLsb'_and]

theorem ofBits_injective {a b : Descriptor} (h : DescFields.ofBits a = DescFields.ofBits b) : a = b := by
  rw [← DescFields.toBits_ofBits a, h, DescFields.toBits_ofBits]

theorem joinBytes_zero_and (b : Byte) : joinBytes 0#8 b &&& 0xFF00#16 = 0#16 := by
  revert b; decide

/-- Under the configuration the table prints, the word selects the row. -/
def SelectsRow.Statement (i : Instr) : Prop := Selects (encode Cfg.default i) (tableRow i) = true

/-- A descriptor selects a row once the masked fields are the row's. -/
theorem selects_of_fields {f : DescFields} {m k : Descriptor}
    (h : DescFields.ofBits (f.toBits &&& k) = DescFields.ofBits m) :
    Selects (.descriptor f.toBits) (.inl (m, k)) = true :=
  decide_eq_true (ofBits_injective h)

theorem SelectsRow.send (b : Byte) (dc : Bit) : SelectsRow.Statement (.send b dc) := by
  apply selects_of_fields
  rw [ofBits_and, DescFields.ofBits_toBits]
  simp [DescFields.ofBits, joinBytes_zero_and]

theorem SelectsRow.init : SelectsRow.Statement .init := by unfold SelectsRow.Statement; decide

theorem SelectsRow.clear (c : Half) : SelectsRow.Statement (.clear c) := by
  apply selects_of_fields
  rw [ofBits_and, DescFields.ofBits_toBits]
  simp [DescFields.ofBits]

theorem SelectsRow.setPixel (x y c : Half) : SelectsRow.Statement (.setPixel x y c) := by
  apply selects_of_fields
  rw [ofBits_and, DescFields.ofBits_toBits]
  simp [DescFields.ofBits]

theorem SelectsRow.tmrrd : SelectsRow.Statement .tmrrd := by unfold SelectsRow.Statement; decide

theorem SelectsRow.elapsed (x y : Half) : SelectsRow.Statement (.elapsed x y) := by
  apply selects_of_fields
  rw [ofBits_and, DescFields.ofBits_toBits]
  simp [DescFields.ofBits]

theorem SelectsRow.cntrst : SelectsRow.Statement .cntrst := by unfold SelectsRow.Statement; decide

theorem SelectsRow.cntrd : SelectsRow.Statement .cntrd := by unfold SelectsRow.Statement; decide

theorem SelectsRow.flagrd (i : Button) : SelectsRow.Statement (.flagrd i) := by
  unfold SelectsRow.Statement; cases i <;> decide

theorem SelectsRow.flagclr (i : Button) : SelectsRow.Statement (.flagclr i) := by
  unfold SelectsRow.Statement; cases i <;> decide

theorem SelectsRow.flagrc (i : Button) : SelectsRow.Statement (.flagrc i) := by
  unfold SelectsRow.Statement; cases i <;> decide

theorem SelectsRow.linkSlpout : SelectsRow.Statement .linkSlpout := by unfold SelectsRow.Statement; decide

theorem SelectsRow.linkGamset : SelectsRow.Statement .linkGamset := by unfold SelectsRow.Statement; decide

theorem SelectsRow.linkPwctr : SelectsRow.Statement .linkPwctr := by unfold SelectsRow.Statement; decide

theorem SelectsRow.linkStba : SelectsRow.Statement .linkStba := by unfold SelectsRow.Statement; decide

theorem SelectsRow.linkColmod : SelectsRow.Statement .linkColmod := by unfold SelectsRow.Statement; decide

theorem SelectsRow.linkMadctl : SelectsRow.Statement .linkMadctl := by unfold SelectsRow.Statement; decide

theorem SelectsRow.linkNoron : SelectsRow.Statement .linkNoron := by unfold SelectsRow.Statement; decide

theorem SelectsRow.linkDispon : SelectsRow.Statement .linkDispon := by unfold SelectsRow.Statement; decide

theorem SelectsRow.linkCaset : SelectsRow.Statement .linkCaset := by unfold SelectsRow.Statement; decide

theorem SelectsRow.linkRaset : SelectsRow.Statement .linkRaset := by unfold SelectsRow.Statement; decide

theorem SelectsRow.linkRamwr : SelectsRow.Statement .linkRamwr := by unfold SelectsRow.Statement; decide

theorem SelectsRow.linkData (b : Byte) : SelectsRow.Statement (.linkData b) := by
  unfold SelectsRow.Statement; revert b; decide

end Sys2Proof.Laws
end

