-- ==== Sys2Proof/Tests/Slice0.lean ====
section
/-! SUPPORT. The model's own tests: ill-formed terms refused, words written out from the spec's encodings, single
steps against 95_test_vectors.md, and a witness for the hypotheses of every obligation. -/

namespace Sys2Proof.Tests

set_option maxRecDepth 20000

open Sys2Proof Sys2Proof.Machine

/-- Cfg2 of 95_test_vectors.md: WIDTH = HEIGHT = 2, every other field at its default. -/
def cfg2 : Cfg := { Cfg.default with width := 2, height := 2 }

/-- The reset state under Cfg2. -/
def s2 : State := State.powerOn cfg2 Unspecified.chosen

/-- The next state, if there is one. -/
def nextOf (o : Host.Outcome State Fault Refusal) : Option State :=
  match o with
  | .next t => some t
  | .fault _ => none
  | .refused _ => none

/-- The reason of a refusal, if there is one. -/
def refusalOf (o : Host.Outcome State Fault Refusal) : Option Refusal :=
  match o with
  | .next _ => none
  | .fault _ => none
  | .refused r => some r

/-- `s2` with a descriptor the host presents next. -/
def presenting (d : Descriptor) : State := { s2 with sched := [.host], host := .queue [d] }

/-- `s2` with an agent scheduled. -/
def turn (a : Agent) : State := { s2 with sched := [a] }

/-- `s2` with an event CTRL consumes next. -/
def receiving (c : Ctrl) (e : LinkEvent) : State :=
  { s2 with sched := [.ctrl], linkTodo := [e], ctrl := c }

/-- An operation in progress. -/
def running (op : SeqOp) (pc : Nat) (busy : Bit) : State :=
  { s2 with seqOp := op, seqPc := pc, txbusy := busy, opv := 0x1234#16 }

/-- A command frame, as 95_test_vectors.md writes it. -/
def C (b : Byte) : LinkEvent := .frame 0#1 b

/-- A data frame. -/
def D (b : Byte) : LinkEvent := .frame 1#1 b

/-- The double after the trace of INIT under Cfg2. -/
def readyCtrl : Ctrl := Ctrl.powerOn.consumeAll cfg2 ((ucode cfg2 .init 0#16 0#16 0#16 0#1).map Micro.event)

/-! Ill-formed terms are refused. -/

theorem test_default_wellFormed : Cfg.default.WellFormed ∧ cfg2.WellFormed := by decide

theorem test_illFormed_equal_command_bytes :
    ¬ { cfg2 with cmdRaset := 0x2A#8 : Cfg }.WellFormed := by decide

theorem test_illFormed_zero_width : ¬ { cfg2 with width := 0 : Cfg }.WellFormed := by decide

theorem test_illFormed_zero_height : ¬ { cfg2 with height := 0 : Cfg }.WellFormed := by decide

theorem test_illFormed_width_wraps :
    ¬ { cfg2 with width := 65534 : Cfg }.WellFormed ∧ { cfg2 with width := 65533 : Cfg }.WellFormed := by
  decide

theorem test_illFormed_height_wraps :
    ¬ { cfg2 with height := 65535 : Cfg }.WellFormed ∧ { cfg2 with height := 65534 : Cfg }.WellFormed := by
  decide

/-- With both extents inside the first conditions the product is always below 2^32; the condition itself. -/
theorem test_illFormed_product :
    ¬ { cfg2 with width := 65536, height := 65536 : Cfg }.ExtentOk := by decide

/-- 92_eei_decisions.md D8: each of the five parameter lists has at least one byte. -/
theorem test_illFormed_empty_parameters :
    ¬ { cfg2 with pGamset := [] : Cfg }.WellFormed ∧ ¬ { cfg2 with pPwctr := [] : Cfg }.WellFormed ∧
    ¬ { cfg2 with pStba := [] : Cfg }.WellFormed := by decide

theorem test_illFormed_empty_modes :
    ¬ { cfg2 with pColmod := [] : Cfg }.WellFormed ∧ ¬ { cfg2 with pMadctl := [] : Cfg }.WellFormed := by decide

/-- V12 to V19: each selects no row, and none is decoded. -/
theorem test_illegal_descriptors_refused :
    [0x0000000000000000#64, 0x0500000000000000#64, 0x1400000000000000#64, 0x2300000000000000#64,
      0xFF00000000000000#64, 0x0200000000000001#64, 0x010000000000012C#64, 0x010200000000002C#64,
      0x0300000100000000#64, 0x0401000000000000#64, 0x1100EA6003E80001#64, 0x1000000000000001#64,
      0x2002000000000000#64, 0x2000000000010000#64, 0x0180000000000000#64].map decode =
      List.replicate 15 none := by decide

/-- V12, V14 to V16: an unassigned opcode, and a must-be-zero bit in V, in V[15:8] and in Z7. -/
theorem test_illFormed_opcode_and_zero_fields :
    ¬ Descriptor.WellFormed 0x0000000000000000#64 ∧ ¬ Descriptor.WellFormed 0x0200000000000001#64 ∧
    ¬ Descriptor.WellFormed 0x010000000000012C#64 ∧ ¬ Descriptor.WellFormed 0x010200000000002C#64 := by decide

/-- V17 to V19: a must-be-zero field in formats C, P, E and F. -/
theorem test_illFormed_formats :
    ¬ Descriptor.WellFormed 0x0300000100000000#64 ∧ ¬ Descriptor.WellFormed 0x0401000000000000#64 ∧
    ¬ Descriptor.WellFormed 0x1100EA6003E80001#64 ∧ ¬ Descriptor.WellFormed 0x2000000000010000#64 := by decide

/-- V63: 0x21 is none of the eleven command bytes. -/
theorem test_illFormed_frame :
    ¬ FrameWellFormed Cfg.default 0x021#9 ∧ decodeFrame Cfg.default 0x021#9 = none ∧
      FrameWellFormed Cfg.default 0x121#9 := by decide

/-- `decodeTableWord` refuses numbers that are no word of the width. -/
theorem test_decodeTableWord_range :
    decodeTableWord 16 0x200 = none ∧ decodeTableWord 64 (2 ^ 64) = none := by decide

/-! Decoding: the words of 95_test_vectors.md section 2.1 and of 30_encoding.md rule R101. -/

/-- V1 and the further encodings of SEND. -/
theorem test_decode_send :
    decode 0x010000000000002C#64 = some (.send 0x2C#8 0#1) ∧
    decode 0x01010000000000F8#64 = some (.send 0xF8#8 1#1) ∧
    decode 0x01010000000000FF#64 = some (.send 0xFF#8 1#1) := by decide

/-- V2. -/
theorem test_decode_init : decode 0x0200000000000000#64 = some .init := by decide

/-- V3. -/
theorem test_decode_clear :
    decode 0x030000000000001F#64 = some (.clear 0x001F#16) ∧
    decode 0x030000000000FFFF#64 = some (.clear 0xFFFF#16) := by decide

/-- V4, V25. -/
theorem test_decode_setPixel :
    decode 0x040000050007F800#64 = some (.setPixel 5#16 7#16 0xF800#16) ∧
    decode 0x0400007F007F07E0#64 = some (.setPixel 127#16 127#16 0x07E0#16) := by decide

/-- V5. -/
theorem test_decode_tmrrd : decode 0x1000000000000000#64 = some .tmrrd := by decide

/-- V6. -/
theorem test_decode_elapsed :
    decode 0x1100EA6003E80000#64 = some (.elapsed 60000#16 1000#16) := by decide

/-- V7. -/
theorem test_decode_cntrst : decode 0x1200000000000000#64 = some .cntrst := by decide

/-- V8. -/
theorem test_decode_cntrd : decode 0x1300000000000000#64 = some .cntrd := by decide

/-- V9 and FLAGRD CONFIRM. -/
theorem test_decode_flagrd :
    decode 0x2001000000000000#64 = some (.flagrd .start) ∧
    decode 0x2000000000000000#64 = some (.flagrd .confirm) := by decide

/-- V10 and FLAGCLR START. -/
theorem test_decode_flagclr :
    decode 0x2100000000000000#64 = some (.flagclr .confirm) ∧
    decode 0x2101000000000000#64 = some (.flagclr .start) := by decide

/-- V11 and FLAGRC CONFIRM. -/
theorem test_decode_flagrc :
    decode 0x2201000000000000#64 = some (.flagrc .start) ∧
    decode 0x2200000000000000#64 = some (.flagrc .confirm) := by decide

/-- Rule R101's bytes, the command bit 0 above them. -/
theorem test_decode_link_commands :
    decodeFrame Cfg.default 0x011#9 = some .linkSlpout ∧
    decodeFrame Cfg.default 0x026#9 = some .linkGamset ∧
    decodeFrame Cfg.default 0x0B1#9 = some .linkPwctr ∧
    decodeFrame Cfg.default 0x0C0#9 = some .linkStba ∧
    decodeFrame Cfg.default 0x03A#9 = some .linkColmod ∧
    decodeFrame Cfg.default 0x036#9 = some .linkMadctl ∧
    decodeFrame Cfg.default 0x013#9 = some .linkNoron ∧
    decodeFrame Cfg.default 0x029#9 = some .linkDispon ∧
    decodeFrame Cfg.default 0x02A#9 = some .linkCaset ∧
    decodeFrame Cfg.default 0x02B#9 = some .linkRaset ∧
    decodeFrame Cfg.default 0x02C#9 = some .linkRamwr := by decide

/-- Rule R100: a data frame whatever its byte, a command byte among them. -/
theorem test_decode_link_data :
    decodeFrame Cfg.default 0x12C#9 = some (.linkData 0x2C#8) ∧
    decodeFrame Cfg.default 0x100#9 = some (.linkData 0#8) := by decide

/-- The encoder writes the same words. -/
theorem test_encode_words :
    encode Cfg.default (.setPixel 5#16 7#16 0xF800#16) = .descriptor 0x040000050007F800#64 ∧
    encode Cfg.default (.flagrc .start) = .descriptor 0x2201000000000000#64 ∧
    encode Cfg.default (.linkData 0xF8#8) = .frame 0x1F8#9 := by decide

/-! Host operations, one step each. -/

/-- V20 step 1. -/
theorem test_send_issue :
    (nextOf (step (presenting 0x010000000000002C#64))).map (fun t => (t.seqOp, t.seqPc, t.opv, t.opm, t.link)) =
      some (.send, 0, 0x002C#16, 0#1, []) := by decide

/-- V20 step 2: the send step and the completion in one step. -/
theorem test_send_step :
    (nextOf (step { s2 with sched := [.seq], seqOp := .send, opv := 0x002C#16 })).map
        (fun t => ((t.txbuf, t.dc, t.txbusy), t.seqOp, t.seqPc, t.link)) =
      some ((0x2C#8, 0#1, 1#1), .none, 0, []) := by decide

/-- V20 step 3. -/
theorem test_tx_step :
    (nextOf (step { s2 with sched := [.tx], txbusy := 1#1, txbuf := 0x2C#8 })).map
        (fun t => (t.txbusy, t.link)) = some (0#1, [C 0x2C#8]) := by decide

/-- V21: SEQ's send step is not enabled while TXBUSY = 1. -/
theorem test_send_waits :
    (nextOf (step { running .send 0 1#1 with sched := [.seq] })).map (fun t => (t.seqOp, t.seqPc, t.txbuf)) =
      some (.send, 0, 0#8) := by decide

/-- V53: the forty events of INIT under Cfg2. -/
theorem test_init_trace :
    (ucode cfg2 .init 0#16 0#16 0#16 0#1).map Micro.event =
      [.rstAssert, .dwell 50, .rstRelease, .dwell 120, C 0x11#8, .dwell 120, C 0x26#8, D 0x04#8,
        C 0xB1#8, D 0x0A#8, D 0x14#8, C 0xC0#8, D 0x0A#8, D 0x00#8, C 0x3A#8, D 0x05#8, .dwell 10,
        C 0x36#8, D 0x08#8, C 0x13#8] ++
      [C 0x2A#8, D 0#8, D 2#8, D 0#8, D 3#8, C 0x2B#8, D 0#8, D 1#8, D 0#8, D 2#8, C 0x2C#8,
        D 0xFF#8, D 0xFF#8, D 0xFF#8, D 0xFF#8, D 0xFF#8, D 0xFF#8, D 0xFF#8, D 0xFF#8, C 0x29#8] := by
  decide

/-- V53: RST is 1 from the first event on. -/
theorem test_init_first_step :
    (nextOf (step { running .init 0 0#1 with sched := [.seq] })).map (fun t => (t.rst, t.link, t.seqPc)) =
      some (1#1, [.rstAssert], 1) := by decide

/-- V29. -/
theorem test_clear_trace :
    (ucode cfg2 .clear 0#16 0#16 0x1234#16 0#1).map Micro.event =
      [C 0x2A#8, D 0#8, D 2#8, D 0#8, D 3#8, C 0x2B#8, D 0#8, D 1#8, D 0#8, D 2#8, C 0x2C#8,
        D 0x12#8, D 0x34#8, D 0x12#8, D 0x34#8, D 0x12#8, D 0x34#8, D 0x12#8, D 0x34#8] := by decide

/-- CLEAR's issue step. -/
theorem test_clear_issue :
    (nextOf (step (presenting 0x0300000000001234#64))).map (fun t => (t.seqOp, t.seqPc, t.opv)) =
      some (.clear, 0, 0x1234#16) := by decide

/-- V24 and V27: the high byte of a coordinate first. -/
theorem test_setPixel_trace :
    (ucode Cfg.default .setPixel 300#16 2#16 1#16 0#1).map Micro.event =
      [C 0x2A#8, D 0x01#8, D 0x2E#8, D 0x01#8, D 0x2E#8, C 0x2B#8, D 0#8, D 3#8, D 0#8, D 3#8, C 0x2C#8,
        D 0#8, D 1#8] := by decide

/-- V28: the 16-bit wrap of both sums. -/
theorem test_setPixel_wraps :
    (ucode Cfg.default .setPixel 65535#16 65535#16 0xABCD#16 0#1).map Micro.event =
      [C 0x2A#8, D 0#8, D 1#8, D 0#8, D 1#8, C 0x2B#8, D 0#8, D 0#8, D 0#8, D 0#8, C 0x2C#8,
        D 0xAB#8, D 0xCD#8] := by decide

/-- V48's first reading. -/
theorem test_tmrrd :
    (nextOf (exec .tmrrd { s2 with cnt := 0xFFFE#16 })).map (·.res) = some 0x0000FFFE#32 := by decide

/-- V48: CNT wraps. -/
theorem test_cnt_wraps :
    (nextOf (step { turn .clk with cnt := 0xFFFF#16 })).map (·.cnt) = some 0#16 := by decide

/-- V40, V43, V44. -/
theorem test_elapsed_wraps :
    (nextOf (step (presenting 0x1100EA6003E80000#64))).map (·.res) = some 6536#32 ∧
    (nextOf (step (presenting 0x1100FFFF00000000#64))).map (·.res) = some 1#32 ∧
    (nextOf (step (presenting 0x1100000100000000#64))).map (·.res) = some 65535#32 := by decide

/-- V45, V42. -/
theorem test_elapsed_forward :
    (nextOf (step (presenting 0x110003E805DC0000#64))).map (·.res) = some 500#32 ∧
    (nextOf (step (presenting 0x11000000FFFF0000#64))).map (·.res) = some 65535#32 := by decide

/-- V50. -/
theorem test_cntrst :
    (nextOf (exec .cntrst { s2 with count := 7#32, res := 7#32, cnt := 5#16 })).map
        (fun t => (t.count, t.res, t.cnt)) = some (0#32, 0#32, 5#16) := by decide

/-- V50. -/
theorem test_cntrd :
    (nextOf (exec .cntrd { s2 with count := 7#32 })).map (fun t => (t.count, t.res)) =
      some (7#32, 7#32) := by decide

/-- V51. -/
theorem test_count_wraps :
    (nextOf (step { turn .tick with count := 0xFFFFFFFF#32 })).map (·.count) = some 0#32 := by decide

/-- V36. -/
theorem test_flagrd :
    (nextOf (exec (.flagrd .confirm) { s2 with flag := { confirm := 1#1, start := 0#1 } })).map
        (fun t => (t.res, t.flag.confirm)) = some (1#32, 1#1) := by decide

/-- V37. -/
theorem test_flagclr :
    (nextOf (exec (.flagclr .start) { s2 with flag := { confirm := 1#1, start := 1#1 }, res := 9#32 })).map
        (fun t => (t.res, t.flag.confirm, t.flag.start)) = some (0#32, 1#1, 0#1) := by decide

/-- V38. -/
theorem test_flagrc :
    (nextOf (exec (.flagrc .start) { s2 with flag := { confirm := 1#1, start := 1#1 } })).map
        (fun t => (t.res, t.flag.confirm, t.flag.start)) = some (1#32, 1#1, 0#1) := by decide

/-- P5: a refused descriptor, recorded. -/
theorem test_illegal_refused :
    refusalOf (step (presenting 0x0300000100000000#64)) = some (.illegalOp 0x0300000100000000#64) := by decide

/-! The pins (V30 to V35). -/

/-- V30. -/
theorem test_press_starts_settle :
    (nextOf (step (turn (.pinFall .start)))).map (fun t => (t.pin.start, t.db.start, t.flag.start)) =
      some (0#1, .settle, 0#1) := by decide

/-- V30. -/
theorem test_relook_latches :
    (nextOf (step { turn (.db .start) with
        pin := { confirm := 1#1, start := 0#1 }, db := { confirm := .idle, start := .settle } })).map
        (fun t => (t.pin.start, t.db.start, t.flag.start, t.flag.confirm)) = some (0#1, .idle, 1#1, 0#1) := by
  decide

/-- V31. -/
theorem test_relook_glitch :
    (nextOf (step { turn (.db .start) with db := { confirm := .idle, start := .settle } })).map
        (fun t => (t.pin.start, t.db.start, t.flag.start)) = some (1#1, .idle, 0#1) := by decide

/-- V35: a pin low since reset gives no edge; the rise is enabled, and starts nothing. -/
theorem test_low_at_reset :
    (nextOf (step { turn (.pinRise .start) with pin := { confirm := 0#1, start := 0#1 } })).map
        (fun t => (t.pin.start, t.pin.confirm, t.db.start)) = some (1#1, 0#1, .idle) := by decide

/-! The controller (V60 to V67, P1). -/

/-- V53: ready, on, no mark, all four pixels the fill colour. -/
theorem test_init_makes_ready :
    readyCtrl.ready cfg2 = true ∧ readyCtrl.shown = true ∧ readyCtrl.NoMark ∧
      readyCtrl.visible cfg2 0#16 0#16 = some 0xFFFF#16 ∧ readyCtrl.visible cfg2 1#16 0#16 = some 0xFFFF#16 ∧
      readyCtrl.visible cfg2 0#16 1#16 = some 0xFFFF#16 ∧ readyCtrl.visible cfg2 1#16 1#16 = some 0xFFFF#16 := by
  decide

/-- P1: frame memory, the window, the recorded parameters. -/
theorem test_program_P1 :
    let c := (readyCtrl.consumeAll cfg2 ((ucode cfg2 .clear 0#16 0#16 0x001F#16 0#1).map Micro.event)).consumeAll
      cfg2 ((ucode cfg2 .setPixel 1#16 0#16 0xF800#16 0#1).map Micro.event)
    c.NoMark ∧ c.k = 20 ∧ c.xs = some 3#16 ∧ c.ye = some 1#16 ∧ c.cur = .stop ∧
      c.gram = [(65538, 0x001F#16), (65539, 0xF800#16), (131074, 0x001F#16), (131075, 0x001F#16)] ∧
      c.recorded = { gamset := [0x04#8], pwctr := [0x0A#8, 0x14#8], stba := [0x0A#8, 0x00#8],
                     colmod := [0x05#8], madctl := [0x08#8] } := by
  decide

/-- V60 and P4: no INIT; UNDEFINED is set and nothing is visible for any claim. -/
theorem test_no_init_marks_undefined :
    let c := Ctrl.powerOn.consumeAll cfg2 ((ucode cfg2 .setPixel 0#16 0#16 0x1234#16 0#1).map Micro.event)
    c.undef = true ∧ c.visible cfg2 0#16 0#16 = none := by decide

/-- V61: outside the extent; nothing stored, and CORRUPT says nothing of any cell. -/
theorem test_outside_marks_corrupt :
    let c := readyCtrl.consumeAll cfg2 ((ucode cfg2 .setPixel 2#16 0#16 0x1234#16 0#1).map Micro.event)
    c.corrupt = true ∧ c.gram = readyCtrl.gram ∧ c.cell 65538 = none ∧ readyCtrl.cell 65538 = some 0xFFFF#16 := by
  decide

/-- V63. -/
theorem test_unknown_command_marks :
    (readyCtrl.consume cfg2 (C 0x21#8)).unmodelled = true := by decide

/-- V64: a pixel past the window. -/
theorem test_past_window_marks_corrupt :
    let c := readyCtrl.consumeAll cfg2 ((ucode cfg2 .setPixel 0#16 0#16 0x1111#16 0#1).map Micro.event)
    (c.consumeAll cfg2 [D 0x22#8, D 0x22#8]).corrupt = true ∧
      (c.consumeAll cfg2 [D 0x22#8]).corrupt = false := by decide

/-- V65: the half pixel is dropped. -/
theorem test_half_pixel_dropped :
    let c := (readyCtrl.consumeAll cfg2
      ((ucode cfg2 .setPixel 0#16 0#16 0x1111#16 0#1).map Micro.event)).consumeAll cfg2 [D 0x22#8, C 0x13#8]
    c.NoMark ∧ c.half = none ∧ c.visible cfg2 0#16 0#16 = some 0x1111#16 := by decide

/-- V66: a second INIT. -/
theorem test_second_init :
    let c := (readyCtrl.consumeAll cfg2
      ((ucode cfg2 .setPixel 0#16 0#16 0x1111#16 0#1).map Micro.event)).consumeAll cfg2
      ((ucode cfg2 .init 0#16 0#16 0#16 0#1).map Micro.event)
    c.ready cfg2 = true ∧ c.NoMark ∧ c.gram = readyCtrl.gram := by decide

/-- V67: a shortened wait. -/
theorem test_short_wait_marks_undefined :
    (Ctrl.powerOn.consumeAll cfg2
      [.rstAssert, .dwell 50, .rstRelease, .dwell 120, C 0x11#8, .dwell 119]).undef = true := by decide

/-- LINK.DISPON. -/
theorem test_linkDispon : (nextOf (exec .linkDispon s2)).map (·.ctrl.on) = some true := by decide

/-- LINK.RAMWR: the cursor at the start of the window, and CORRUPT without one. -/
theorem test_linkRamwr :
    (nextOf (exec .linkRamwr { s2 with ctrl := readyCtrl })).map (fun t => (t.ctrl.cur, t.ctrl.corrupt)) =
      some (.at 2#16 1#16, false) ∧
    (nextOf (exec .linkRamwr s2)).map (fun t => (t.ctrl.cur, t.ctrl.corrupt)) = some (.none, true) := by
  decide

/-- LINK.DATA after LINK.CASET: the start column, high byte first (rule R264). -/
theorem test_linkData_window :
    (readyCtrl.consumeAll cfg2 [C 0x2A#8, D 0x01#8, D 0x2E#8]).xs = some 0x012E#16 := by decide

/-- LINK.SLPOUT has no parameter: its data frame sets UNMODELLED (rule R263). -/
theorem test_linkSlpout :
    (readyCtrl.consume cfg2 (C 0x11#8)).unmodelled = false ∧
      (readyCtrl.consumeAll cfg2 [C 0x11#8, D 0#8]).unmodelled = true := by decide

/-- LINK.GAMSET, PWCTR, STBA, COLMOD, MADCTL record their parameters (rule R263). -/
theorem test_parameters_recorded :
    (Ctrl.powerOn.consumeAll cfg2 [C 0x26#8, D 1#8, C 0xB1#8, D 2#8, D 3#8, C 0xC0#8, D 4#8, C 0x3A#8, D 5#8,
        C 0x36#8, D 6#8]).recorded =
      { gamset := [1#8], pwctr := [2#8, 3#8], stba := [4#8], colmod := [5#8], madctl := [6#8] } := by decide

/-! The reference host (V70 to V77, T4). -/

/-- V70 to V72. -/
theorem test_thresholds :
    sampleMatches .up 3277#14 = false ∧ sampleMatches .right 3276#14 = true ∧
    sampleMatches .down 13107#14 = false ∧ sampleMatches .left 13108#14 = true ∧
    sampleMatches .up 0#14 = true ∧ sampleMatches .up 16383#14 = false := by decide

/-- V73 to V77. -/
theorem test_timeFigure :
    timeFigure .up 0#32 6536#16 = 2 ∧ timeFigure .cross 3#32 6536#16 = 292 ∧
    timeFigure .cross 0#32 500#16 = -10 ∧ timeFigure .up 1000#32 0#16 = 100000 ∧
    timeFigure .right 999#32 65535#16 = 99921 := by decide

/-- T4 and V77. -/
theorem test_digits :
    timeChars 0 12345 = [0x31#8, 0x32#8, 0x33#8, 0x34#8, 0x35#8] ∧
    timeChars 0 7 = [0x30#8, 0x30#8, 0x30#8, 0x30#8, 0x37#8] ∧
    timeChars 0 99921 = [0x39#8, 0x39#8, 0x39#8, 0x32#8, 0x31#8] := by decide

/-- The engine's first operation is INIT (rule R236). -/
theorem test_engine_boots_with_init :
    (nextOf (step { turn .host with host := .engine Engine.boot })).map (·.seqOp) = some .init := by decide

/-! Witnesses: for every obligation with hypotheses, concrete values that meet them, one for each clause. -/

theorem test_witness_DecodeOfEncodeIsIdentity :
    Cfg.default.CommandsDistinct ∧ decodeEncoded Cfg.default (encode Cfg.default (.linkData 0xFF#8)) =
      some (.linkData 0xFF#8) := by decide

theorem test_witness_EncodeOfDecodeIsIdentity :
    decodeEncoded cfg2 (.descriptor 0x01010000000000FF#64) = some (.send 0xFF#8 1#1) ∧
    decodeEncoded cfg2 (.frame 0x02C#9) = some .linkRamwr := by decide

theorem test_witness_LegalIffSelectsOneRow :
    (0x0300000000000000#64, 0xFFFFFFFFFFFF0000#64) ∈ descriptorRows ∧
    Descriptor.Selects 0x030000000000FFFF#64 (0x0300000000000000#64, 0xFFFFFFFFFFFF0000#64) := by decide

/-- DisplayOperationsIssue, TimerOperationsComplete, CntrstClearsCount, FlagOperationsComplete,
ElapsedArithmeticLaw. -/
theorem test_witness_free_port : s2.seqOp = .none := by decide

theorem test_witness_ClosedPortChangesNothing :
    decode 0x030000000000001F#64 = some (.clear 0x1F#16) ∧ (running .send 0 1#1).seqOp ≠ .none ∧
    { running .send 0 1#1 with sched := [.host], host := .queue [0#64] : State }.sched = .host :: [] := by decide

theorem test_witness_OnlyIllegalDescriptorsAreRefused :
    step (presenting 0#64) = .refused (.illegalOp 0#64) := rfl

theorem test_witness_HostOperationsFrame :
    decode 0x2100000000000000#64 = some (.flagclr .confirm) ∧
    (∃ t, exec (.flagclr .confirm) s2 = .next t) ∧
    Instr.flagclr .confirm ≠ .cntrst ∧ Instr.flagclr .confirm ≠ .flagclr .start ∧
    Instr.flagclr .confirm ≠ .flagrc .start := ⟨by decide, ⟨_, rfl⟩, by decide, by decide, by decide⟩

theorem test_witness_StepRunsPresentedDescriptor :
    (presenting 0x1300000000000000#64).sched = .host :: [] ∧ (presenting 0x1300000000000000#64).seqOp = .none ∧
    (presenting 0x1300000000000000#64).host = .queue (0x1300000000000000#64 :: []) ∧
    decode 0x1300000000000000#64 = some .cntrd := by decide

theorem test_witness_IllegalDescriptorIsRefused :
    (presenting 0x0401000000000000#64).sched = .host :: [] ∧ (presenting 0x0401000000000000#64).seqOp = .none ∧
    (presenting 0x0401000000000000#64).host = .queue (0x0401000000000000#64 :: []) ∧
    ¬ Descriptor.WellFormed 0x0401000000000000#64 := by decide

/-- StepRunsReceivedFrame, ControllerConsumesLinkInOrder. -/
theorem test_witness_StepRunsReceivedFrame :
    (receiving Ctrl.powerOn (C 0x29#8)).sched = .ctrl :: [] ∧
    (receiving Ctrl.powerOn (C 0x29#8)).linkTodo = .frame 0#1 0x29#8 :: [] ∧
    decodeFrame (receiving Ctrl.powerOn (C 0x29#8)).cfg (frameBits 0#1 0x29#8) = some .linkDispon := by decide

/-- SETPIXEL's send steps: the first and the last of thirteen. -/
theorem test_witness_SendStepLoadsTransmitRegister :
    ({ running .setPixel 0 0#1 with sched := [.seq] } : State).sched = .seq :: [] ∧
    (running .setPixel 0 0#1).ucode[0]? = some (.sendf 0#1 0x2A#8) ∧
    0 + 1 < (running .setPixel 0 0#1).ucode.length ∧ (running .setPixel 0 0#1).txbusy = 0#1 ∧
    (running .setPixel 12 0#1).ucode[12]? = some (.sendf 1#1 0x34#8) ∧
    12 + 1 = (running .setPixel 12 0#1).ucode.length := by decide

/-- INIT's elements 0 to 3. -/
theorem test_witness_ResetLineAndDwellSteps :
    ({ running .init 0 0#1 with sched := [.seq] } : State).sched = .seq :: [] ∧
    (running .init 0 0#1).txbusy = 0#1 ∧
    (running .init 0 0#1).ucode[0]? = some .rsta ∧ (running .init 1 0#1).ucode[1]? = some (.dwell 50) ∧
    (running .init 2 0#1).ucode[2]? = some .rstr ∧ (running .init 3 0#1).ucode[3]? = some (.dwell 120) := by
  decide

/-- Each agent at its turn, not enabled: SEQ waiting and idle, TX idle, no settle, a pressed pin that cannot
fall, a released one that cannot rise, nothing to consume, the port closed, nothing to present. -/
theorem test_witness_DisabledAgentsPass :
    (turn .seq).sched = .seq :: [] ∧ (running .send 0 1#1).txbusy = 1#1 ∧ s2.seqOp = .none ∧ s2.txbusy = 0#1 ∧
    s2.db.get .start = .idle ∧
    ({ s2 with pin := { confirm := 0#1, start := 1#1 } } : State).pin.get .confirm = 0#1 ∧
    s2.pin.get .start = 1#1 ∧ s2.linkTodo = [] ∧ (running .send 0 1#1).seqOp ≠ .none ∧ s2.host = .queue [] := by
  decide

theorem test_witness_TransmitStepEmitsFrame :
    ({ running .send 0 1#1 with sched := [.tx] } : State).sched = .tx :: [] ∧
    ({ running .send 0 1#1 with sched := [.tx] } : State).txbusy = 1#1 := by decide

theorem test_witness_CountersStep :
    ({ turn .clk with cnt := 0xFFFF#16 } : State).sched = .clk :: [] ∧
    ({ turn .tick with count := 0xFFFFFFFF#32 } : State).sched = .tick :: [] := by decide

/-- A released pin in IDLE and in SETTLE, and a pressed one. -/
theorem test_witness_PinStepsStartSettle :
    (turn (.pinFall .start)).sched = .pinFall .start :: [] ∧ (turn (.pinFall .start)).pin.get .start = 1#1 ∧
    (turn (.pinFall .start)).db.get .start = .idle ∧
    ({ turn (.pinFall .start) with db := { confirm := .idle, start := .settle } } : State).db.get .start = .settle ∧
    (turn (.pinRise .confirm)).sched = .pinRise .confirm :: [] ∧
    ({ turn (.pinRise .confirm) with pin := { confirm := 0#1, start := 1#1 } } : State).pin.get .confirm = 0#1 := by
  decide

/-- A settling button, held and released; and a step that sets a flag. -/
theorem test_witness_RelookLatchesIfStillPressed :
    let held : State := { turn (.db .confirm) with
      db := { confirm := .settle, start := .idle }, pin := { confirm := 0#1, start := 1#1 } }
    let released : State := { turn (.db .confirm) with db := { confirm := .settle, start := .idle } }
    held.sched = .db .confirm :: [] ∧ held.db.get .confirm = .settle ∧ held.pin.get .confirm = 0#1 ∧
    released.sched = .db .confirm :: [] ∧ released.db.get .confirm = .settle ∧ released.pin.get .confirm = 1#1 ∧
    held.flag.get .confirm = 0#1 ∧ ∃ t, step held = .next t ∧ t.flag.get .confirm = 1#1 :=
  ⟨by decide, by decide, by decide, by decide, by decide, by decide, by decide, ⟨_, rfl, by decide⟩⟩

/-- The controller's part of the invariant, at power-on. -/
theorem test_powerOn_ctrl_inv : Ctrl.powerOn.Inv cfg2 := by
  refine ⟨by decide, ?_, by decide, by decide, ?_⟩
  · intro col row h; cases h
  · intro p h; cases h

/-- In the middle of INIT, with RST asserted. -/
theorem test_witness_StepKeepsInvariant :
    ({ running .init 1 0#1 with rst := 1#1, sched := [.seq] } : State).Inv ∧
    (∃ t, step { running .init 1 0#1 with rst := 1#1, sched := [.seq] } = .next t) :=
  ⟨⟨by decide, by decide, test_powerOn_ctrl_inv⟩, ⟨_, rfl⟩⟩

/-- A turn of HOST that clears a flag, and an operation that does. -/
theorem test_witness_OnlyHostClearsFlag :
    (∃ t, step { presenting 0x2101000000000000#64 with flag := { confirm := 1#1, start := 1#1 } } = .next t ∧
      t.flag.get .start = 0#1 ∧ t.flag.get .confirm = 1#1) ∧
    ∃ t, exec (.flagrc .confirm) { s2 with flag := { confirm := 1#1, start := 1#1 } } = .next t ∧
      t.flag.get .confirm ≠ 1#1 :=
  ⟨⟨_, rfl, by decide, by decide⟩, ⟨_, rfl, by decide⟩⟩

/-- One step for each element that changes. -/
theorem test_witness_WritersOfEachElement :
    (∃ t, step { turn (.db .start) with
        pin := { confirm := 1#1, start := 0#1 }, db := { confirm := .idle, start := .settle } } = .next t ∧
      t.flag.get .start ≠ s2.flag.get .start) ∧
    (∃ t, step (turn .clk) = .next t ∧ t.cnt ≠ s2.cnt) ∧
    ∃ t, step (turn .tick) = .next t ∧ t.count ≠ s2.count :=
  ⟨⟨_, rfl, by decide⟩, ⟨_, rfl, by decide⟩, ⟨_, rfl, by decide⟩⟩

theorem test_witness_WritersOfEachElement_display :
    (∃ t, step { running .send 0 0#1 with sched := [.seq] } = .next t ∧ t.txbuf ≠ s2.txbuf ∧
      t.txbusy ≠ s2.txbusy) ∧
    (∃ t, step { running .init 0 0#1 with sched := [.seq] } = .next t ∧ t.rst ≠ s2.rst) ∧
    (∃ t, step (turn (.pinFall .start)) = .next t ∧ t.pin.get .start ≠ s2.pin.get .start ∧
      t.db.get .start ≠ s2.db.get .start) ∧
    ∃ t, step (receiving Ctrl.powerOn (C 0x29#8)) = .next t ∧ t.ctrl ≠ Ctrl.powerOn :=
  ⟨⟨_, rfl, by decide, by decide⟩, ⟨_, rfl, by decide⟩, ⟨_, rfl, by decide, by decide⟩, ⟨_, rfl, by decide⟩⟩

theorem test_witness_FrameInFlightIsStable :
    (running .send 0 1#1).txbusy = 1#1 ∧
    ∃ t, step { running .send 0 1#1 with sched := [.tx] } = .next t ∧ t.txbusy = 0#1 :=
  ⟨by decide, ⟨_, rfl, by decide⟩⟩

theorem test_witness_SentGrowsByMicroEvents :
    ∃ t, step { running .init 0 0#1 with sched := [.seq] } = .next t ∧ t.sent = [.rstAssert] :=
  ⟨_, rfl, by decide⟩

/-- In the middle of SETPIXEL, and at its last frame. -/
theorem test_witness_OperationSendsExactlyItsList :
    ({ running .setPixel 0 0#1 with sched := [.seq] } : State).SeqInv ∧
    ({ running .setPixel 0 0#1 with sched := [.seq] } : State).sent =
      [] ++ ((running .setPixel 0 0#1).ucode.take 0).map Micro.event ∧
    (∃ t, step { running .setPixel 0 0#1 with sched := [.seq] } = .next t ∧ t.seqOp ≠ .none) ∧
    ∃ t, step { running .setPixel 12 0#1 with
        sched := [.seq]
        linkTodo := ((running .setPixel 0 0#1).ucode.take 12).map Micro.event } = .next t ∧ t.seqOp = .none :=
  ⟨by decide, by decide, ⟨_, rfl, by decide⟩, ⟨_, rfl, by decide⟩⟩

theorem test_witness_NoProgressWithoutTransmit :
    ({ running .send 0 1#1 with sched := [.seq] } : State).WaitsOnTx ∧
    ({ running .send 0 1#1 with sched := [.seq] } : State).nextAgent ≠ .tx ∧
    ∃ t, step { running .send 0 1#1 with sched := [.seq] } = .next t :=
  ⟨by decide, by decide, ⟨_, rfl⟩⟩

theorem test_witness_OperationCompletesIfTransmitRuns :
    (running .setPixel 5 1#1).SeqInv ∧ (running .setPixel 5 1#1).seqOp ≠ .none := by decide

/-- A SEND waiting on a busy transmit unit: TX, SEQ and TX move first, then whoever is chosen. -/
def fairStart : State := { running .send 0 1#1 with sched := [.tx, .seq, .tx] }

/-- The run from there. -/
def fairRun : Nat → State
  | 0 => fairStart
  | n + 1 => (nextOf (step (fairRun n))).getD (fairRun n)

theorem fairRun_succ {n : Nat} {t : State} (h : step (fairRun n) = .next t) : fairRun (n + 1) = t := by
  simp [fairRun, h, nextOf]

/-- After three steps the run is idle for ever, whichever agents the free choice names. -/
theorem fairRun_idle (n : Nat) : (fairRun (n + 3)).Idle := by
  induction n with
  | zero => exact ⟨rfl, rfl, rfl⟩
  | succ n ih =>
    obtain ⟨t, e, h⟩ := ih.step
    exact (fairRun_succ e : fairRun (n + 1 + 3) = t) ▸ h

theorem fairRun_isRun : IsRun fairRun
  | 0 => rfl
  | 1 => rfl
  | 2 => rfl
  | n + 3 => by
    obtain ⟨t, e, -⟩ := (fairRun_idle n).step
    rw [fairRun_succ e, e]

/-- An agent that an idle state does not enable is weakly fair along this run. -/
theorem fairRun_fair (a : Agent) (enabled : State → Prop) (h : ∀ s : State, s.Idle → ¬ enabled s) :
    WeaklyFair a enabled fairRun :=
  fun n hn => absurd (hn (n + 3) (by omega)) (h _ (fairRun_idle n))

/-- A run with a healthy transmit unit and a fair SEQ, that starts busy and with an operation in progress. -/
theorem test_witness_OperationCompletesIfTransmitRuns_fair :
    IsRun fairRun ∧ TxHealthy fairRun ∧ SeqFair fairRun ∧ (fairRun 0).txbusy = 1#1 ∧ (fairRun 0).SeqInv ∧
    (fairRun 0).seqOp ≠ .none :=
  ⟨fairRun_isRun, fairRun_fair _ _ (fun s h => by simp [h.2.2]),
    fairRun_fair _ _ (fun s h => by simp [h.nextMicro]), rfl, by decide, by decide⟩

/-- EventAgentsCommute: the steps of a button, and another button. -/
theorem test_witness_EventAgentsCommute :
    (fun s : State => s.dbStep .start) ∈
      [fun s : State => s.dbStep .start, fun s => s.pinFallStep .start, fun s => s.pinRiseStep .start] ∧
    Button.confirm ≠ Button.start := ⟨List.mem_cons_self, by decide⟩

theorem test_witness_BounceLatchesAtMostOnce :
    s2.db.get .confirm = .idle ∧ s2.pin.get .confirm = 1#1 ∧
    ∀ a ∈ [Agent.pinRise .confirm, .pinFall .confirm, .pinRise .confirm],
      a = .pinFall .confirm ∨ a = .pinRise .confirm := by decide

/-- FillListIsOneWindowThenPixels: the first and the last pixel of Cfg2. -/
theorem test_witness_FillListIsOneWindowThenPixels : 0 < cfg2.width * cfg2.height ∧ 3 < cfg2.width * cfg2.height := by
  decide

/-- A whole window, a reversed one, and none. -/
theorem test_witness_MemoryWriteOpensCursor :
    (readyCtrl.xs = some 2#16 ∧ readyCtrl.xe = some 3#16 ∧ readyCtrl.ys = some 1#16 ∧ readyCtrl.ye = some 2#16) ∧
    (nextOf (exec .linkRamwr { s2 with ctrl := { readyCtrl with xs := some 4#16 } })).map
      (fun t => (t.ctrl.cur, t.ctrl.corrupt)) = some (.none, true) ∧
    Ctrl.powerOn.xs = none := by decide

theorem test_witness_UnknownCommandIsMarked :
    (receiving Ctrl.powerOn (C 0x21#8)).sched = .ctrl :: [] ∧
    (receiving Ctrl.powerOn (C 0x21#8)).linkTodo = .frame 0#1 0x21#8 :: [] ∧
    ∀ sym, (receiving Ctrl.powerOn (C 0x21#8)).cfg.cmdByte sym ≠ 0x21#8 :=
  ⟨by decide, by decide, fun sym => by cases sym <;> decide⟩

/-- CASET and RASET current, at the first, the last and a fifth parameter. -/
theorem test_witness_WindowDataFrames :
    (Ctrl.powerOn.consumeAll cfg2 [C 0x2A#8]).cmd = some .caset ∧
    (Ctrl.powerOn.consumeAll cfg2 [C 0x2B#8, D 1#8, D 2#8, D 3#8]).cmd = some .raset ∧
    (Ctrl.powerOn.consumeAll cfg2 [C 0x2B#8, D 1#8, D 2#8, D 3#8]).pidx = 3 ∧
    (Ctrl.powerOn.consumeAll cfg2 [C 0x2B#8, D 1#8, D 2#8, D 3#8, D 4#8]).ye = some 0x0304#16 ∧
    (Ctrl.powerOn.consumeAll cfg2 [C 0x2A#8, D 1#8, D 2#8, D 3#8, D 4#8]).unmodelled = false ∧
    (Ctrl.powerOn.consumeAll cfg2 [C 0x2A#8, D 1#8, D 2#8, D 3#8, D 4#8, D 5#8]).unmodelled = true := by decide

/-- One command of each kind current. -/
theorem test_witness_ParameterDataFrames :
    (Ctrl.powerOn.consumeAll cfg2 [C 0x26#8]).cmd = some .gamset ∧
    (Ctrl.powerOn.consumeAll cfg2 [C 0xB1#8]).cmd = some .pwctr ∧
    (Ctrl.powerOn.consumeAll cfg2 [C 0xC0#8]).cmd = some .stba ∧
    (Ctrl.powerOn.consumeAll cfg2 [C 0x3A#8]).cmd = some .colmod ∧
    (Ctrl.powerOn.consumeAll cfg2 [C 0x36#8]).cmd = some .madctl ∧
    (Ctrl.powerOn.consumeAll cfg2 [C 0x13#8]).cmd = some .noron ∧ Ctrl.powerOn.cmd = none := by decide

/-- RAMWR current: no half pixel, a cell inside, a cell outside, past the window. -/
theorem test_witness_PixelDataFrames :
    let c := readyCtrl.consumeAll cfg2 [C 0x2C#8]
    c.cmd = some .ramwr ∧ c.half = none ∧ (c.consume cfg2 (D 0x12#8)).half = some 0x12#8 ∧
    c.cur = .at 2#16 1#16 ∧ inExtent cfg2 2#16 1#16 = true ∧ inExtent cfg2 3#16 2#16 = true ∧
    inExtent cfg2 4#16 2#16 = false ∧ inExtent cfg2 1#16 1#16 = false ∧
    (c.consumeAll cfg2 (List.replicate 8 (D 0#8))).cur = .stop := by decide

/-- The column moves, the row moves, the window ends. -/
theorem test_witness_CursorAdvances :
    let c := readyCtrl.consumeAll cfg2 [C 0x2C#8]
    (c.consumeAll cfg2 [D 1#8, D 2#8]).cur = .at 3#16 1#16 ∧
    (c.consumeAll cfg2 (List.replicate 4 (D 0#8))).cur = .at 2#16 2#16 ∧
    (c.consumeAll cfg2 (List.replicate 8 (D 0#8))).cur = .stop ∧
    (c.consumeAll cfg2 [D 1#8]).half = some 1#8 ∧ c.cur = .at 2#16 1#16 ∧
    c.xs = some 2#16 ∧ c.xe = some 3#16 ∧ c.ye = some 2#16 := by decide

/-- A place of `E` of each kind: a frame, a dwell, the release; and a ready controller. -/
theorem test_witness_ExpectedSequenceIsTracked :
    (expected cfg2)[1]? = some (.dwell 50) ∧ (expected cfg2)[2]? = some .rstRelease ∧
    (expected cfg2)[4]? = some (C 0x11#8) ∧ (expected cfg2).length = 20 ∧ readyCtrl.ready cfg2 = true := by decide

theorem test_witness_ResetPulseEmptiesController :
    (receiving readyCtrl .rstAssert).sched = .ctrl :: [] ∧
    (receiving readyCtrl .rstAssert).linkTodo = .rstAssert :: [] := by decide

/-- A marked controller takes a step. -/
theorem test_witness_MarksAreSticky :
    ∃ t, step (receiving { readyCtrl with corrupt := true, undef := true, unmodelled := true } .rstAssert) = .next t :=
  ⟨_, rfl⟩

/-- WindowTraceSetsWindow, ClearTraceFillsScreen, InitTraceMakesControllerReady. -/
theorem test_witness_ready_controller :
    cfg2.CommandsDistinct ∧ cfg2.ExtentFits ∧ readyCtrl.ready cfg2 = true ∧ readyCtrl.NoMark := by decide

/-- SetPixelTraceSetsOnePixel, ClearThenSetPixelDiffersInOne: the first and the last pixel;
SetPixelOutsideExtentIsMarked: the first coordinates outside, and the ones that wrap. -/
theorem test_witness_pixels :
    cfg2.CommandsDistinct ∧ cfg2.ExtentFits ∧ readyCtrl.ready cfg2 = true ∧ readyCtrl.NoMark ∧
    cfg2.InView 1#16 1#16 ∧ cfg2.InView 0#16 0#16 ∧
    ¬ cfg2.InView 2#16 0#16 ∧ ¬ cfg2.InView 0#16 2#16 ∧ ¬ cfg2.InView 65535#16 65535#16 ∧
    (0x1F#16 : Half) ≠ 0xF800#16 := by decide

theorem test_witness_OutputIsDecimal : 0 ≤ 99999 ∧ 99999 ≤ 99999 := by decide

/-- Every phase a clause names is that of some engine; the renderer has pixels left, and none. -/
theorem test_witness_EngineDuties_phases (p : Phase) (px : Half × Half) :
    ({ Engine.boot with phase := p } : Engine).phase = p ∧
    ({ Engine.boot with phase := p, todo := [px] } : Engine).todo = px :: [] ∧ Engine.boot.todo = [] :=
  ⟨rfl, rfl, rfl⟩

/-- A directional stimulus and Cross, and a turn of HOST with an engine that issues an operation and one that issues
none. -/
theorem test_witness_EngineDuties :
    Engine.boot.stimulus ≠ .cross ∧ ({ Engine.boot with stimulus := .cross } : Engine).stimulus = .cross ∧
    (1#32 : Word) ≠ 0#32 ∧
    (turn .host).sched = .host :: [] ∧ ({ turn .host with host := .engine Engine.boot } : State).seqOp = .none ∧
    Engine.boot.turn s2.cfg s2.res s2.draws = ({ Engine.boot with phase := .idleClear }, some .init) ∧
    ({ Engine.boot with phase := .latchStart } : Engine).turn s2.cfg s2.res s2.draws =
      ({ Engine.boot with phase := .evaluate }, none) :=
  ⟨by decide, rfl, by decide, rfl, rfl, rfl, rfl⟩

end Sys2Proof.Tests
end

section
/-! PROOFS. Agents that are not enabled: each one's turn gives the state back (00_scope.md rule R10, log 1). -/

namespace Sys2Proof.Machine

variable {s : State} {i : Button}

/-- SEQ waits while a frame is in the transmit unit. -/
theorem State.seqStep_of_txBusy (h : s.txbusy = 1#1) : s.seqStep = s := by
  obtain ⟨_, hfree, -, -⟩ | ⟨-, hstep⟩ := s.seqStep_cases
  · simp [hfree] at h
  · exact hstep

/-- With no operation in progress there is no list, so no micro-event. -/
theorem State.ucode_of_idle (h : s.seqOp = .none) : s.ucode = [] := by
  simp [State.ucode, Machine.ucode, h]

theorem State.seqStep_of_idle (h : s.seqOp = .none) : s.seqStep = s := by
  obtain ⟨_, -, hmicro, -⟩ | ⟨-, hstep⟩ := s.seqStep_cases
  · simp [State.ucode_of_idle h] at hmicro
  · exact hstep

theorem State.txStep_of_txFree (h : s.txbusy = 0#1) : s.txStep = s := by
  obtain ⟨hbusy, -⟩ | ⟨-, hstep⟩ := s.txStep_cases
  · simp [hbusy] at h
  · exact hstep

theorem State.dbStep_of_idle (h : s.db.get i = .idle) : s.dbStep i = s := by
  obtain ⟨hsettle, -⟩ | ⟨hsettle, -⟩ | ⟨-, hstep⟩ := s.dbStep_cases i
  · simp [hsettle] at h
  · simp [hsettle] at h
  · exact hstep

/-- A pin that is pressed already cannot fall. -/
theorem State.pinFallStep_of_pressed (h : s.pin.get i = 0#1) : s.pinFallStep i = s := by
  obtain ⟨hreleased, -⟩ | ⟨hreleased, -⟩ | ⟨-, hstep⟩ := s.pinFallStep_cases i
  · simp [hreleased] at h
  · simp [hreleased] at h
  · exact hstep

/-- A pin that is released already cannot rise. -/
theorem State.pinRiseStep_of_released (h : s.pin.get i = 1#1) : s.pinRiseStep i = s := by
  obtain ⟨hpressed, -⟩ | ⟨-, hstep⟩ := s.pinRiseStep_cases i
  · simp [hpressed] at h
  · exact hstep

theorem State.ctrlStep_of_linkTodo_nil (h : s.linkTodo = []) : s.ctrlStep = .next s := by
  simp [State.ctrlStep, h]

/-- HOST is blocked at a closed port (30_encoding.md rule R93). -/
theorem State.hostStep_of_portClosed (h : s.seqOp ≠ .none) : s.hostStep = .next s := by
  simp [State.hostStep, State.portFree_iff, h]

/-- HOST has nothing to present, whether its port is free or not. -/
theorem State.hostStep_of_queue_nil (h : s.host = .queue []) : s.hostStep = .next s := by
  simp [State.hostStep, h]

/-- Settles O18: the step is a turn of the scheduled agent in the state with the turn used up, and the turn of an
agent that is not enabled gives that state back. -/
theorem disabledAgentsPass : Obligations.DisabledAgentsPass := by
  intro s a rest hsched hdisabled
  rw [step_cons hsched]
  obtain ⟨rfl, hbusy | hidle⟩ | ⟨rfl, hfree⟩ | ⟨i, rfl, hidle⟩ | ⟨i, rfl, hpressed⟩ | ⟨i, rfl, hreleased⟩ |
    ⟨rfl, hnil⟩ | ⟨rfl, hclosed | hnothing⟩ := hdisabled
  · exact congrArg Host.Outcome.next (State.seqStep_of_txBusy hbusy)
  · exact congrArg Host.Outcome.next (State.seqStep_of_idle hidle)
  · exact congrArg Host.Outcome.next (State.txStep_of_txFree hfree)
  · exact congrArg Host.Outcome.next (State.dbStep_of_idle hidle)
  · exact congrArg Host.Outcome.next (State.pinFallStep_of_pressed hpressed)
  · exact congrArg Host.Outcome.next (State.pinRiseStep_of_released hreleased)
  · exact State.ctrlStep_of_linkTodo_nil hnil
  · exact State.hostStep_of_portClosed hclosed
  · exact State.hostStep_of_queue_nil hnothing

end Sys2Proof.Machine
end

section
/-! PROOFS. The micro-event lists of the display operations (41_display_driver.md rules R152 to R159): how long each
is, and which of their elements move the reset line. -/

namespace Sys2Proof.Machine

variable (cfg : Cfg)

@[simp] theorem length_halfFrames (v : Half) : (halfFrames v).length = 2 := rfl

@[simp] theorem length_windowList (xs xe ys ye : Half) : (windowList cfg xs xe ys ye).length = 10 := rfl

@[simp] theorem length_configList (cmd : Byte) (params : List Byte) :
    (configList cmd params).length = params.length + 1 := by simp [configList]

@[simp] theorem length_fillList (c : Half) : (fillList cfg c).length = 11 + 2 * cfg.width * cfg.height := by
  simp [fillList, fullwinList, memwrList, pixelList]
  ring

@[simp] theorem length_initSequence : (initSequence cfg).length =
    13 + cfg.pGamset.length + cfg.pPwctr.length + cfg.pStba.length + cfg.pColmod.length + cfg.pMadctl.length := by
  simp [initSequence]
  omega

theorem length_ucode_init (x y v : Half) (m : Bit) : (ucode cfg .init x y v m).length =
    25 + cfg.pGamset.length + cfg.pPwctr.length + cfg.pStba.length + cfg.pColmod.length + cfg.pMadctl.length +
      2 * cfg.width * cfg.height := by
  simp [ucode]
  omega

/-- `V[7:0]` as a number. -/
theorem loByte_eq_ofNat (v : Half) : loByte v = BitVec.ofNat 8 (v.toNat % 256) := by
  apply BitVec.eq_of_toNat_eq
  simp [loByte, BitVec.extractLsb'_toNat]

/-- Settles O25: SEND's and INIT's lists are the model's own with the names of their parts and of the waits written
out, and the lengths add up over the parts. -/
theorem microEventCounts : Obligations.MicroEventCounts := by
  intro cfg x y v m
  have hsend : ucode cfg .send x y v m = [.sendf m (loByte v)] := rfl
  exact ⟨rfl, rfl, length_fillList cfg v, length_ucode_init cfg x y v m, loByte_eq_ofNat v ▸ hsend, rfl⟩

/-- An operation's list is not empty. -/
theorem length_ucode_pos {op : SeqOp} (h : op ≠ .none) (x y v : Half) (m : Bit) :
    0 < (ucode cfg op x y v m).length := by
  cases op with
  | none => exact absurd rfl h
  | send => exact Nat.one_pos
  | init => rw [length_ucode_init]; omega
  | clear => simp only [ucode, length_fillList]; omega
  | setPixel => exact Nat.succ_pos 12

/-- The reset line after a micro-event that finds it at `r` (rule R151). -/
def Micro.rstAfter (r : Bit) : Micro → Bit
  | .rsta => 1#1
  | .rstr => 0#1
  | .sendf _ _ => r
  | .dwell _ => r

/-- The reset line at a position of an operation's list: asserted between lines 1 and 3 of INIT (rule R157). -/
def rstLine (op : SeqOp) (pc : Nat) : Bit := if op = .init ∧ (pc = 1 ∨ pc = 2) then 1#1 else 0#1

/-- A list that leaves the reset line alone. -/
def KeepsRst (l : List Micro) : Prop := ∀ e ∈ l, ∀ r, e.rstAfter r = r

@[simp] theorem keepsRst_nil : KeepsRst [] := by simp [KeepsRst]

@[simp] theorem keepsRst_append {l k : List Micro} : KeepsRst (l ++ k) ↔ KeepsRst l ∧ KeepsRst k :=
  List.forall_mem_append

@[simp] theorem keepsRst_cons_sendf {dc : Bit} {b : Byte} {l : List Micro} :
    KeepsRst (.sendf dc b :: l) ↔ KeepsRst l := by simp [KeepsRst, Micro.rstAfter]

@[simp] theorem keepsRst_cons_dwell {n : Nat} {l : List Micro} : KeepsRst (.dwell n :: l) ↔ KeepsRst l := by
  simp [KeepsRst, Micro.rstAfter]

@[simp] theorem keepsRst_halfFrames (v : Half) : KeepsRst (halfFrames v) := by simp [halfFrames]

@[simp] theorem keepsRst_configList (cmd : Byte) (params : List Byte) : KeepsRst (configList cmd params) := by
  simp [configList, KeepsRst, Micro.rstAfter]

@[simp] theorem keepsRst_windowList (xs xe ys ye : Half) : KeepsRst (windowList cfg xs xe ys ye) := by
  simp [windowList]

@[simp] theorem keepsRst_fillList (c : Half) : KeepsRst (fillList cfg c) := by
  have hpixels (n : Nat) : KeepsRst (List.replicate n (pixelList c)).flatten := by
    induction n with
    | zero => exact keepsRst_nil
    | succ n ih => exact keepsRst_append.2 ⟨keepsRst_halfFrames c, ih⟩
  simp [fillList, fullwinList, memwrList, hpixels]

/-- INIT moves the reset line in its lines 1 and 3 and nowhere else (rule R157). -/
theorem ucode_init_eq (x y v : Half) (m : Bit) : ∃ tail,
    ucode cfg .init x y v m = .rsta :: .dwell Config.rstHoldMs :: .rstr :: tail ∧ KeepsRst tail :=
  ⟨_, rfl, by simp⟩

/-- No other operation moves the reset line. -/
theorem keepsRst_ucode {op : SeqOp} (h : op ≠ .init) (x y v : Half) (m : Bit) : KeepsRst (ucode cfg op x y v m) := by
  cases op with
  | none => exact keepsRst_nil
  | send => simp [ucode]
  | init => exact absurd rfl h
  | clear => exact keepsRst_fillList cfg v
  | setPixel => simp [ucode, memwrList, pixelList]

/-- Each micro-event takes the reset line from its level at one position to its level at the next. -/
theorem rstAfter_rstLine {op : SeqOp} {x y v : Half} {m : Bit} {pc : Nat} {e : Micro}
    (h : (ucode cfg op x y v m)[pc]? = some e) : e.rstAfter (rstLine op pc) = rstLine op (pc + 1) := by
  by_cases hop : op = .init
  · subst hop
    obtain ⟨tail, heq, htail⟩ := ucode_init_eq cfg x y v m
    rw [heq] at h
    match pc with
    | 0 => exact Option.some.inj h ▸ rfl
    | 1 => exact Option.some.inj h ▸ rfl
    | 2 => exact Option.some.inj h ▸ rfl
    | n + 3 =>
      rw [htail e (List.mem_of_getElem? h)]
      simp [rstLine]
  · rw [keepsRst_ucode cfg hop x y v m e (List.mem_of_getElem? h)]
    simp [rstLine, hop]

/-- The reset line is released when the operation completes: INIT is longer than its first three lines. -/
theorem rstLine_length (op : SeqOp) (x y v : Half) (m : Bit) :
    rstLine op (ucode cfg op x y v m).length = 0#1 := by
  refine if_neg ?_
  rintro ⟨rfl, h⟩
  rw [length_ucode_init] at h
  omega

end Sys2Proof.Machine
end

section
/-! PROOFS. A turn of SEQ keeps SEQ's position inside its list and the reset line where that position says
(10_state.md rule R27, 41_display_driver.md rule R157). -/

namespace Sys2Proof.Machine

variable {s : State}

@[simp] theorem State.perform_cfg (s : State) (e : Micro) : (s.perform e).cfg = s.cfg := by cases e <;> rfl
@[simp] theorem State.perform_seqOp (s : State) (e : Micro) : (s.perform e).seqOp = s.seqOp := by cases e <;> rfl
@[simp] theorem State.perform_seqPc (s : State) (e : Micro) : (s.perform e).seqPc = s.seqPc := by cases e <;> rfl
@[simp] theorem State.perform_ucode (s : State) (e : Micro) : (s.perform e).ucode = s.ucode := by cases e <;> rfl
@[simp] theorem State.perform_ctrl (s : State) (e : Micro) : (s.perform e).ctrl = s.ctrl := by cases e <;> rfl
@[simp] theorem State.perform_flag (s : State) (e : Micro) : (s.perform e).flag = s.flag := by cases e <;> rfl
@[simp] theorem State.perform_rst (s : State) (e : Micro) : (s.perform e).rst = e.rstAfter s.rst := by
  cases e <;> rfl

theorem State.rstInv_iff : s.RstInv ↔ s.rst = rstLine s.seqOp s.seqPc := Iff.rfl

/-- An operation in progress has its list. -/
theorem State.seqOp_ne_none {e : Micro} (h : s.ucode[s.seqPc]? = some e) : s.seqOp ≠ .none := by
  intro hidle
  simp [State.ucode_of_idle hidle] at h

/-- The micro-event at SEQ.pc takes the reset line to its level at the next position. -/
theorem State.RstInv.perform {e : Micro} (h : s.RstInv) (he : s.ucode[s.seqPc]? = some e) :
    (s.perform e).rst = rstLine s.seqOp (s.seqPc + 1) := by
  rw [State.perform_rst, State.rstInv_iff.1 h]
  exact rstAfter_rstLine s.cfg he

/-- SEQ moves on inside its list. -/
theorem State.inv_moveOn {t : State} (hctrl : t.ctrl.Inv t.cfg) (hop : t.seqOp ≠ .none)
    (hlt : t.seqPc + 1 < t.ucode.length) (hrst : t.rst = rstLine t.seqOp (t.seqPc + 1)) :
    ({ t with seqPc := t.seqPc + 1 } : State).Inv :=
  ⟨⟨fun h => absurd h hop, fun _ => hlt⟩, hrst, hctrl⟩

/-- With no operation in progress the invariant is that of the controller, the released reset line and SEQ.pc = 0. -/
theorem State.inv_of_idle {t : State} (hop : t.seqOp = .none) (hpc : t.seqPc = 0) (hrst : t.rst = 0#1)
    (hctrl : t.ctrl.Inv t.cfg) : t.Inv :=
  ⟨⟨fun _ => hpc, fun h => absurd hop h⟩, by simp [State.RstInv, hop, hrst], hctrl⟩

theorem State.Inv.seqStep (h : s.Inv) : s.seqStep.Inv := by
  obtain ⟨hseq, hrst, hctrl⟩ := h
  obtain ⟨e, -, he, hstep⟩ | ⟨-, hstep⟩ := s.seqStep_cases
  · have hop := State.seqOp_ne_none he
    have hline := hrst.perform he
    rw [hstep]
    obtain ⟨hlt, hadv⟩ | ⟨hle, hadv⟩ := (s.perform e).advanceSeq_cases s.ucode.length
    · rw [hadv]
      exact State.inv_moveOn (by simpa using hctrl) (by simpa using hop) (by simpa using hlt) (by simpa using hline)
    · have hlast : s.seqPc + 1 = s.ucode.length := by
        have := hseq.2 hop
        simp only [State.perform_seqPc] at hle
        omega
      rw [hadv]
      refine State.inv_of_idle rfl rfl ?_ (by simpa using hctrl)
      rw [hlast] at hline
      exact hline.trans (rstLine_length _ _ _ _ _ _)
  · rw [hstep]
    exact ⟨hseq, hrst, hctrl⟩

/-- What the port does to a state keeps the invariant: an issued operation starts at the head of its list, which is
not empty, with the reset line released. -/
theorem IssueEffect.inv {i : Instr} {t : State} (he : IssueEffect i s t) (hidle : s.seqOp = .none) (h : s.Inv) :
    t.Inv := by
  obtain ⟨hseq, hrst, hctrl⟩ := h
  cases he with
  | issue op x y v m hop =>
    have hreleased : s.rst = 0#1 := by simpa [State.RstInv, hidle] using hrst
    refine ⟨⟨fun _ => rfl, fun _ => length_ucode_pos s.cfg hop x y v m⟩, ?_, hctrl⟩
    simpa [State.RstInv] using hreleased
  | setRes => exact ⟨hseq, hrst, hctrl⟩
  | clearCount => exact ⟨hseq, hrst, hctrl⟩
  | clearFlag => exact ⟨hseq, hrst, hctrl⟩

/-- A turn of HOST. -/
theorem State.Inv.hostStep {t : State} (h : s.Inv) (hstep : s.hostStep = .next t) : t.Inv := by
  obtain ⟨g, n, -, rfl⟩ | ⟨hidle, g, n, d, i, hd, he⟩ := State.hostStep_cases hstep
  · exact h
  · obtain ⟨hclosed, -⟩ | ⟨-, heffect⟩ := exec_decoded_cases hd he
    · exact absurd hidle hclosed
    · exact heffect.inv hidle h

end Sys2Proof.Machine
end

section
/-! PROOFS. The controller's invariant is kept by everything it consumes (46_controller_double.md): its place in E is
inside E, the cursor of a memory write in the window, frame memory inside the full-extent window. -/

namespace Sys2Proof.Machine

variable {cfg : Cfg} {c : Ctrl}

/-- Outside a memory write the invariant asks nothing of the cursor. -/
theorem Ctrl.inv_of_not_ramwr (hk : c.k ≤ (expected cfg).length) (hcmd : c.cmd ≠ some .ramwr)
    (hhalf : c.half = none) (hgram : c.GramInv cfg) : c.Inv cfg :=
  ⟨hk, fun _ _ h => absurd h hcmd, fun h => absurd hhalf h, hgram⟩

theorem Ctrl.GramInv.nil (h : c.gram = []) : c.GramInv cfg := by simp [Ctrl.GramInv, Gram.wf, h]

theorem Ctrl.powerOn_inv (cfg : Cfg) : Ctrl.powerOn.Inv cfg :=
  Ctrl.inv_of_not_ramwr (Nat.zero_le _) (by simp [Ctrl.powerOn]) rfl (.nil rfl)

/-- The comparison with `E[k]` moves `k` only to a place inside E (rule R270). -/
theorem Ctrl.track_k_le (h : c.k ≤ (expected cfg).length) (e : LinkEvent) :
    (c.track cfg e).k ≤ (expected cfg).length := by
  unfold Ctrl.track
  split
  · exact h
  · next hwant =>
    have hlt : c.k < (expected cfg).length := (List.getElem?_eq_some_iff.1 hwant).1
    split_ifs
    · exact hlt
    · exact h
    · exact h

theorem Ctrl.Inv.track (h : c.Inv cfg) (e : LinkEvent) : (c.track cfg e).Inv cfg := by
  obtain ⟨hk, hrest⟩ := h
  have hk' := Ctrl.track_k_le hk e
  rw [Ctrl.track_eq]
  exact ⟨hk', hrest⟩

/-- RST_ASSERT empties the controller and leaves it behind the first element of E (rule R271). -/
theorem Ctrl.resetPulse_inv (cfg : Cfg) (c : Ctrl) : c.resetPulse.Inv cfg := by
  refine Ctrl.inv_of_not_ramwr ?_ (by simp [Ctrl.resetPulse]) rfl (.nil rfl)
  simp only [Ctrl.resetPulse, expected, List.length_map, length_initSequence]
  omega

/-- RAMWR puts the cursor at the start of a window that is whole and not reversed, or nowhere (rule R262). -/
theorem Ctrl.openCursor_cases (c : Ctrl) :
    (∃ xs xe ys ye, c.xs = some xs ∧ c.xe = some xe ∧ c.ys = some ys ∧ c.ye = some ye ∧
      xs.toNat ≤ xe.toNat ∧ ys.toNat ≤ ye.toNat ∧ c.openCursor = { c with cur := .at xs ys }) ∨
    c.openCursor = { c with cur := .none, corrupt := true } := by
  unfold Ctrl.openCursor
  split
  · next xs xe ys ye hxs hxe hys hye =>
    split_ifs with hwin
    · exact .inl ⟨xs, xe, ys, ye, hxs, hxe, hys, hye, hwin.1, hwin.2, rfl⟩
    · exact .inr rfl
  · exact .inr rfl

theorem Ctrl.openCursor_inv (hk : c.k ≤ (expected cfg).length) (hhalf : c.half = none) (hgram : c.GramInv cfg) :
    c.openCursor.Inv cfg := by
  obtain ⟨xs, xe, ys, ye, hxs, hxe, hys, hye, hx, hy, heq⟩ | heq := c.openCursor_cases
  · rw [heq]
    refine ⟨hk, fun col row _ hcur => ?_, fun h => absurd hhalf h, hgram⟩
    obtain ⟨rfl, rfl⟩ : xs = col ∧ ys = row := by simpa using hcur
    exact ⟨xs, xe, ys, ye, hxs, hxe, hys, hye, le_rfl, hx, le_rfl, hy⟩
  · rw [heq]
    exact ⟨hk, fun _ _ _ hcur => Cursor.noConfusion hcur, fun h => absurd hhalf h, hgram⟩

/-- Every known command but RAMWR becomes current and at most switches the display on (rule R262). -/
theorem Ctrl.command_eq {sym : LinkCmd} (h : sym ≠ .ramwr) (c : Ctrl) :
    c.command sym = { c.beginCommand sym with on := (c.command sym).on } := by
  cases sym with
  | ramwr => exact absurd rfl h
  | _ => rfl

/-- A command frame drops the half pixel, and only RAMWR opens a cursor. -/
theorem Ctrl.Inv.command (h : c.Inv cfg) (sym : LinkCmd) : (c.command sym).Inv cfg := by
  obtain ⟨hk, -, -, hgram⟩ := h
  by_cases hsym : sym = .ramwr
  · subst hsym
    exact Ctrl.openCursor_inv (c := c.beginCommand .ramwr) hk rfl hgram
  · rw [Ctrl.command_eq hsym]
    exact Ctrl.inv_of_not_ramwr hk (by simpa [Ctrl.beginCommand] using hsym) rfl hgram

theorem Ctrl.Inv.unknownCommand (h : c.Inv cfg) : c.unknownCommand.Inv cfg := by
  obtain ⟨hk, -, -, hgram⟩ := h
  exact Ctrl.inv_of_not_ramwr hk (by simp [Ctrl.unknownCommand]) rfl hgram

/-- A data frame after CASET writes only the window and a mark (rule R264). -/
theorem Ctrl.casetData_eq (b : Byte) (c : Ctrl) : c.casetData b =
    { c with xs := (c.casetData b).xs, xe := (c.casetData b).xe, unmodelled := (c.casetData b).unmodelled } := by
  unfold Ctrl.casetData
  split_ifs <;> rfl

/-- A data frame after RASET writes only the window and a mark (rule R264). -/
theorem Ctrl.rasetData_eq (b : Byte) (c : Ctrl) : c.rasetData b =
    { c with ys := (c.rasetData b).ys, ye := (c.rasetData b).ye, unmodelled := (c.rasetData b).unmodelled } := by
  unfold Ctrl.rasetData
  split_ifs <;> rfl

/-- Outside a memory write a data frame leaves the place in E, the command, the half pixel and frame memory alone
(rules R263, R264, R268). -/
theorem Ctrl.dataEffect_of_not_ramwr (h : c.cmd ≠ some .ramwr) (b : Byte) :
    (c.dataEffect cfg b).k = c.k ∧ (c.dataEffect cfg b).cmd = c.cmd ∧ (c.dataEffect cfg b).half = c.half ∧
      (c.dataEffect cfg b).gram = c.gram := by
  unfold Ctrl.dataEffect
  split
  · rw [Ctrl.casetData_eq]; exact ⟨rfl, rfl, rfl, rfl⟩
  · rw [Ctrl.rasetData_eq]; exact ⟨rfl, rfl, rfl, rfl⟩
  · contradiction
  all_goals exact ⟨rfl, rfl, rfl, rfl⟩

/-- (col, row) lies in the window, which is whole (rule R266). -/
def Ctrl.InWindow (c : Ctrl) (col row : Half) : Prop :=
  ∃ xs xe ys ye, c.xs = some xs ∧ c.xe = some xe ∧ c.ys = some ys ∧ c.ye = some ye ∧
    xs.toNat ≤ col.toNat ∧ col.toNat ≤ xe.toNat ∧ ys.toNat ≤ row.toNat ∧ row.toNat ≤ ye.toNat

theorem Ctrl.cursorInv_iff : c.CursorInv ↔
    ∀ col row, c.cmd = some .ramwr → c.cur = .at col row → c.InWindow col row := Iff.rfl

/-- A 16-bit value below another does not wrap when it grows by one. -/
theorem toNat_add_one_of_lt {a b : Half} (h : a.toNat < b.toNat) : (a + 1#16).toNat = a.toNat + 1 := by
  bv_omega

/-- The next cursor of a cell in the window is in the window: one column on, or at the start of the next row
(rule R266). -/
theorem Ctrl.InWindow.next {col row col' row' : Half} (h : c.InWindow col row)
    (hnext : c.nextCursor col row = .at col' row') : c.InWindow col' row' := by
  obtain ⟨xs, xe, ys, ye, hxs, hxe, hys, hye, hx, hx', hy, hy'⟩ := h
  simp only [Ctrl.nextCursor, hxs, hxe, hye] at hnext
  split_ifs at hnext with hcol hrow
  · obtain ⟨rfl, rfl⟩ := Cursor.at.inj hnext
    have hgrow := toNat_add_one_of_lt hcol
    exact ⟨xs, xe, ys, ye, hxs, hxe, hys, hye, by omega, by omega, hy, hy'⟩
  · obtain ⟨rfl, rfl⟩ := Cursor.at.inj hnext
    have hgrow := toNat_add_one_of_lt hrow
    exact ⟨xs, xe, ys, ye, hxs, hxe, hys, hye, le_rfl, hx.trans hx', by omega, by omega⟩

/-- A memory write writes only frame memory or a mark (rule R267). -/
theorem Ctrl.memWrite_eq (cfg : Cfg) (col row v : Half) (c : Ctrl) : c.memWrite cfg col row v =
    { c with gram := (c.memWrite cfg col row v).gram, corrupt := (c.memWrite cfg col row v).corrupt } := by
  unfold Ctrl.memWrite
  split_ifs <;> rfl

/-- A memory write stores only inside the extent (rule R267). -/
theorem Ctrl.GramInv.memWrite (h : c.GramInv cfg) (col row v : Half) : (c.memWrite cfg col row v).GramInv cfg := by
  obtain ⟨hwf, hcells⟩ := h
  unfold Ctrl.memWrite
  split_ifs with hin
  · refine ⟨Gram.write_wf hwf _ _, fun p hp => ?_⟩
    obtain rfl | hp := Gram.mem_write hp
    · exact ⟨col, row, hin, rfl⟩
    · exact hcells p hp
  · exact ⟨hwf, hcells⟩

/-- A whole pixel writes at the cursor and moves it on inside the window, or marks (rules R265, R266). -/
theorem Ctrl.Inv.pixel (h : c.Inv cfg) (v : Half) : (c.pixel cfg v).Inv cfg := by
  obtain ⟨hk, hcur, hhalf, hgram⟩ := h
  unfold Ctrl.pixel
  split
  · next col row hat =>
    have hgram' := hgram.memWrite col row v
    rw [Ctrl.memWrite_eq] at hgram' ⊢
    exact ⟨hk, fun _ _ hcmd hnext => (Ctrl.cursorInv_iff.1 hcur col row hcmd hat).next hnext, hhalf, hgram'⟩
  · exact ⟨hk, hcur, hhalf, hgram⟩
  · exact ⟨hk, hcur, hhalf, hgram⟩

/-- A byte of a memory write is held as the half pixel or completes a pixel (rule R265). -/
theorem Ctrl.Inv.ramwrData (h : c.Inv cfg) (hcmd : c.cmd = some .ramwr) (b : Byte) : (c.ramwrData cfg b).Inv cfg := by
  obtain ⟨hk, hcur, -, hgram⟩ := h
  unfold Ctrl.ramwrData
  split
  · exact ⟨hk, hcur, fun _ => hcmd, hgram⟩
  · exact Ctrl.Inv.pixel (c := { c with half := none }) ⟨hk, hcur, fun h => absurd rfl h, hgram⟩ _

theorem Ctrl.Inv.dataEffect (h : c.Inv cfg) (b : Byte) : (c.dataEffect cfg b).Inv cfg := by
  by_cases hcmd : c.cmd = some .ramwr
  · have hram : c.dataEffect cfg b = c.ramwrData cfg b := by simp [Ctrl.dataEffect, hcmd]
    rw [hram]
    exact h.ramwrData hcmd b
  · obtain ⟨hk, -, hhalf, hgram⟩ := h
    obtain ⟨ek, ecmd, ehalf, egram⟩ := Ctrl.dataEffect_of_not_ramwr (cfg := cfg) hcmd b
    refine Ctrl.inv_of_not_ramwr (by rwa [ek]) (by rwa [ecmd]) ?_ (by rwa [Ctrl.GramInv, egram])
    rw [ehalf]
    exact not_not.1 fun h => hcmd (hhalf h)

/-- CTRL keeps its invariant whatever event it consumes. -/
theorem Ctrl.Inv.consume (h : c.Inv cfg) (e : LinkEvent) : (c.consume cfg e).Inv cfg := by
  cases e with
  | frame dc b =>
    have htrack := h.track (.frame dc b)
    simp only [Ctrl.consume]
    split_ifs
    · exact htrack.dataEffect b
    · split
      · exact htrack.command _
      · exact htrack.unknownCommand
  | rstAssert => exact Ctrl.resetPulse_inv cfg c
  | rstRelease =>
    simp only [Ctrl.consume]
    split_ifs
    · exact h
    · exact h.track _
  | dwell n => exact h.track _

end Sys2Proof.Machine
end

section
/-! PROOFS. The machine's invariant holds at power-on and every step keeps it. -/

namespace Sys2Proof.Machine

variable {s t : State}

/-- A frame is received as the reference model consumes it, whichever row or no row its word names (rules R260,
R262). -/
theorem State.receiveFrame_eq (s : State) (dc : Bit) (b : Byte) :
    s.receiveFrame dc b = .next { s with ctrl := s.ctrl.consume s.cfg (.frame dc b) } := by
  unfold State.receiveFrame decodeFrame
  rw [frameDc_frameBits, frameByte_frameBits]
  obtain rfl | rfl := Bit.eq_zero_or_one dc
  · cases hsym : s.cfg.symbolOf b with
    | none => simp [Ctrl.consume, hsym]
    | some sym =>
      simp [Ctrl.consume, hsym, exec_instr, State.receiveCommand, Cfg.cmdByte_of_symbolOf hsym]
  · rfl

/-- A turn of CTRL with an event to consume: the event passes to the consumed part of LINK (rule R260). -/
theorem State.ctrlStep_cons {e : LinkEvent} {es : List LinkEvent} (h : s.linkTodo = e :: es) :
    s.ctrlStep = .next { s.popEvent e es with ctrl := s.ctrl.consume s.cfg e } := by
  cases e <;> simp [State.ctrlStep, h, State.receiveFrame_eq]

theorem State.Inv.ctrlStep (h : s.Inv) (hstep : s.ctrlStep = .next t) : t.Inv := by
  cases htodo : s.linkTodo with
  | nil =>
    rw [State.ctrlStep_of_linkTodo_nil htodo] at hstep
    exact Host.Outcome.next.inj hstep ▸ h
  | cons e es =>
    obtain ⟨hseq, hrst, hctrl⟩ := h
    rw [State.ctrlStep_cons htodo] at hstep
    cases hstep
    exact ⟨hseq, hrst, hctrl.consume e⟩

/-- A turn of any agent. TX, the counters, the pins and the debouncers write nothing the invariant speaks of. -/
theorem State.Inv.agentStep (h : s.Inv) (a : Agent) (hstep : s.agentStep a = .next t) : t.Inv := by
  cases a with
  | host => exact h.hostStep hstep
  | ctrl => exact h.ctrlStep hstep
  | seq => cases hstep; exact h.seqStep
  | clk => cases hstep; exact h
  | tick => cases hstep; exact h
  | tx =>
    cases hstep
    obtain ⟨-, e⟩ | ⟨-, e⟩ := s.txStep_cases <;> rw [e] <;> exact h
  | db i =>
    cases hstep
    obtain ⟨-, -, e⟩ | ⟨-, -, e⟩ | ⟨-, e⟩ := s.dbStep_cases i <;> rw [e] <;> exact h
  | pinFall i =>
    cases hstep
    obtain ⟨-, -, e⟩ | ⟨-, -, e⟩ | ⟨-, e⟩ := s.pinFallStep_cases i <;> rw [e] <;> exact h
  | pinRise i =>
    cases hstep
    obtain ⟨-, e⟩ | ⟨-, e⟩ := s.pinRiseStep_cases i <;> rw [e] <;> exact h

/-- Settles O27: a step is a turn of an agent after the scheduling choice, which writes nothing the invariant speaks
of. -/
theorem stepKeepsInvariant : Obligations.StepKeepsInvariant := by
  intro s t h hstep
  refine State.Inv.agentStep (s := s.consumeChoice) ?_ s.nextAgent hstep
  rw [State.consumeChoice_eq]
  exact h

/-- Settles O26: each element has the value rule R40 gives it or the unspecified one, and the invariant holds of SEQ
idle and of the empty controller. -/
theorem powerOnState : Obligations.PowerOnState := by
  intro cfg u
  have hinv : (State.powerOn cfg u).Inv := State.inv_of_idle rfl rfl rfl (Ctrl.powerOn_inv cfg)
  have hbuttons (i : Button) : (State.powerOn cfg u).db.get i = .idle ∧ (State.powerOn cfg u).flag.get i = 0#1 := by
    cases i <;> exact ⟨rfl, rfl⟩
  exact ⟨rfl, rfl, rfl, rfl, rfl, hbuttons, rfl, rfl, rfl, rfl, rfl, rfl, rfl, rfl, rfl, rfl, rfl, rfl, rfl, rfl,
    fun _ => rfl, rfl, rfl, rfl, rfl, rfl, rfl, rfl, rfl, rfl, rfl, rfl, hinv⟩

end Sys2Proof.Machine
end

section
/-! PROOFS. Who sets and who clears a flag (10_state.md rule R28, 43_input_sampler.md rules R203, R205, R209). -/

namespace Sys2Proof.Machine

variable {s t : State} {i : Button}

/-- Every instruction has a word that the machine fetches: a descriptor, a command frame or a data frame
(30_encoding.md rules R94, R100). -/
theorem Instr.word_cases (j : Instr) :
    (∃ d, decode d = some j) ∨ (∃ sym : LinkCmd, j = sym.instr) ∨ ∃ b, j = .linkData b := by
  cases j with
  | send b dc =>
    exact .inl ⟨mkDescriptor 0x01#8 dc 0#16 0#16 (joinBytes 0#8 b), by
      simp [decode_mkDescriptor, decodeFields, DescFields.isB, hiByte_joinBytes, loByte_joinBytes]⟩
  | init => exact .inl ⟨0x0200000000000000#64, by decide⟩
  | clear c =>
    exact .inl ⟨mkDescriptor 0x03#8 0#1 0#16 0#16 c, by simp [decode_mkDescriptor, decodeFields, DescFields.isC]⟩
  | setPixel x y c =>
    exact .inl ⟨mkDescriptor 0x04#8 0#1 x y c, by simp [decode_mkDescriptor, decodeFields, DescFields.isP]⟩
  | tmrrd => exact .inl ⟨0x1000000000000000#64, by decide⟩
  | elapsed x y =>
    exact .inl ⟨mkDescriptor 0x11#8 0#1 x y 0#16, by simp [decode_mkDescriptor, decodeFields, DescFields.isE]⟩
  | cntrst => exact .inl ⟨0x1200000000000000#64, by decide⟩
  | cntrd => exact .inl ⟨0x1300000000000000#64, by decide⟩
  | flagrd i => exact .inl ⟨mkDescriptor 0x20#8 i.bit 0#16 0#16 0#16, by cases i <;> decide⟩
  | flagclr i => exact .inl ⟨mkDescriptor 0x21#8 i.bit 0#16 0#16 0#16, by cases i <;> decide⟩
  | flagrc i => exact .inl ⟨mkDescriptor 0x22#8 i.bit 0#16 0#16 0#16, by cases i <;> decide⟩
  | linkSlpout => exact .inr (.inl ⟨.slpout, rfl⟩)
  | linkGamset => exact .inr (.inl ⟨.gamset, rfl⟩)
  | linkPwctr => exact .inr (.inl ⟨.pwctr, rfl⟩)
  | linkStba => exact .inr (.inl ⟨.stba, rfl⟩)
  | linkColmod => exact .inr (.inl ⟨.colmod, rfl⟩)
  | linkMadctl => exact .inr (.inl ⟨.madctl, rfl⟩)
  | linkNoron => exact .inr (.inl ⟨.noron, rfl⟩)
  | linkDispon => exact .inr (.inl ⟨.dispon, rfl⟩)
  | linkCaset => exact .inr (.inl ⟨.caset, rfl⟩)
  | linkRaset => exact .inr (.inl ⟨.raset, rfl⟩)
  | linkRamwr => exact .inr (.inl ⟨.ramwr, rfl⟩)
  | linkData b => exact .inr (.inr ⟨b, rfl⟩)

/-- The issue step of an operation leaves a flag alone, or is FLAGCLR or FLAGRC of that flag and clears it. -/
theorem IssueEffect.flag_cases {j : Instr} (h : IssueEffect j s t) (i : Button) :
    t.flag.get i = s.flag.get i ∨ (j = .flagclr i ∨ j = .flagrc i) ∧ t.flag.get i = 0#1 := by
  cases h with
  | issue => exact .inl rfl
  | setRes => exact .inl rfl
  | clearCount => exact .inl rfl
  | clearFlag k v hj =>
    by_cases hk : i = k
    · subst hk
      exact .inr ⟨hj, by simp⟩
    · exact .inl (by simp [hk])

/-- Running any instruction leaves a flag alone, or is FLAGCLR or FLAGRC of that flag and clears it. -/
theorem exec_flag_cases {j : Instr} (h : exec j s = .next t) (i : Button) :
    t.flag.get i = s.flag.get i ∨ (j = .flagclr i ∨ j = .flagrc i) ∧ t.flag.get i = 0#1 := by
  obtain ⟨d, hd⟩ | ⟨sym, rfl⟩ | ⟨b, rfl⟩ := Instr.word_cases j
  · obtain ⟨-, rfl⟩ | ⟨-, heffect⟩ := exec_decoded_cases hd h
    · exact .inl rfl
    · exact heffect.flag_cases i
  · rw [exec_instr] at h
    cases h
    exact .inl rfl
  · cases h
    exact .inl rfl

/-- A turn of SEQ writes no flag. -/
@[simp] theorem State.seqStep_flag (s : State) : s.seqStep.flag = s.flag := by
  obtain ⟨e, -, -, hstep⟩ | ⟨-, hstep⟩ := s.seqStep_cases
  · obtain ⟨-, hadv⟩ | ⟨-, hadv⟩ := (s.perform e).advanceSeq_cases s.ucode.length <;> simp [hstep, hadv]
  · rw [hstep]

/-- The relook of a debouncer only sets flags (rule R203). -/
theorem State.dbStep_keeps_set_flag (k : Button) (h : s.flag.get i = 1#1) : (s.dbStep k).flag.get i = 1#1 := by
  obtain ⟨-, -, e⟩ | ⟨-, -, e⟩ | ⟨-, e⟩ := s.dbStep_cases k
  · by_cases hk : i = k
    · subst hk
      simp [e]
    · simp [e, hk, h]
  · simp [e, h]
  · simp [e, h]

/-- A set flag stays set through a turn of any agent but HOST. -/
theorem State.agentStep_keeps_set_flag {a : Agent} (ha : a ≠ .host) (hstep : s.agentStep a = .next t)
    (h : s.flag.get i = 1#1) : t.flag.get i = 1#1 := by
  cases a with
  | host => exact absurd rfl ha
  | seq => cases hstep; simpa using h
  | clk => cases hstep; exact h
  | tick => cases hstep; exact h
  | ctrl =>
    obtain ⟨done, todo, c, e⟩ := s.ctrlStep_next
    cases e.symm.trans hstep
    exact h
  | tx =>
    cases hstep
    obtain ⟨-, e⟩ | ⟨-, e⟩ := s.txStep_cases <;> simpa [e] using h
  | db k => cases hstep; exact State.dbStep_keeps_set_flag k h
  | pinFall k =>
    cases hstep
    obtain ⟨-, -, e⟩ | ⟨-, -, e⟩ | ⟨-, e⟩ := s.pinFallStep_cases k <;> simpa [e] using h
  | pinRise k =>
    cases hstep
    obtain ⟨-, e⟩ | ⟨-, e⟩ := s.pinRiseStep_cases k <;> simpa [e] using h

/-- Settles O28: no agent but HOST clears a flag, and of the instructions only FLAGCLR and FLAGRC write one. -/
theorem onlyHostClearsFlag : Obligations.OnlyHostClearsFlag := by
  refine ⟨fun s t i hstep hset hclear => ?_, fun s t j i h hne => ?_⟩
  · by_contra ha
    have hset' : s.consumeChoice.flag.get i = 1#1 := by rwa [State.consumeChoice_eq]
    have hstays := State.agentStep_keeps_set_flag ha hstep hset'
    simp [hstays] at hclear
  · exact (exec_flag_cases h i).resolve_left hne

end Sys2Proof.Machine
end

section
/-! PROOFS. Parts of the state and the steps confined to one: two steps confined to disjoint parts commute
(20_memory.md rules R75, R76, 60_exceptions.md rule R297). -/

namespace Sys2Proof.Machine

/-- A part of the state, given by what it is to replace it: `take t s` is `t` with this part of `s`. -/
structure StatePart where
  take : State → State → State
  take_self : ∀ s, take s s = s

/-- A step reads and writes this part only: with any other rest of the machine it makes the same of the part, and
it leaves the rest alone. -/
def StatePart.Confines (p : StatePart) (u : State → State) : Prop := ∀ t s, u (p.take t s) = p.take t (u s)

/-- Two parts share no element: it does not matter which is replaced first. -/
def StatePart.Disjoint (p q : StatePart) : Prop := ∀ t s r, p.take (q.take t r) s = q.take (p.take t s) r

namespace StatePart

variable {p q : StatePart} {u v : State → State}

theorem Disjoint.symm (h : p.Disjoint q) : q.Disjoint p := fun t s r => (h t r s).symm

/-- A confined step changes its own part only. -/
theorem Confines.eq_take (h : p.Confines u) (s : State) : u s = p.take s (u s) :=
  (congrArg u (p.take_self s)).symm.trans (h s s)

theorem Confines.comp (hu : p.Confines u) (hv : p.Confines v) : p.Confines fun s => v (u s) :=
  fun t s => (congrArg v (hu t s)).trans (hv t (u s))

/-- A step confined to one part leaves the other as it was. -/
theorem Disjoint.take_step (h : p.Disjoint q) (hv : q.Confines v) (s : State) : p.take (v s) s = v s := by
  rw [hv.eq_take s, h, p.take_self]

/-- After a step outside its part, a step makes of its own part what it would have made of it before. -/
theorem Confines.after (hu : p.Confines u) (h : p.Disjoint q) (hv : q.Confines v) (s : State) :
    u (v s) = p.take (v s) (u s) := by
  conv_lhs => rw [← h.take_step hv s]
  exact hu _ _

/-- Steps confined to disjoint parts commute. -/
theorem Disjoint.commute (h : p.Disjoint q) (hu : p.Confines u) (hv : q.Confines v) (s : State) :
    u (v s) = v (u s) :=
  calc u (v s)
    _ = p.take (v s) (u s) := hu.after h hv s
    _ = p.take (q.take s (v s)) (u s) := by rw [← hv.eq_take]
    _ = q.take (p.take s (u s)) (v s) := h _ _ _
    _ = q.take (u s) (v s) := by rw [← hu.eq_take]
    _ = v (u s) := (hv.after h.symm hu s).symm

/-- CNT. -/
def cnt : StatePart := ⟨fun t s => { t with cnt := s.cnt }, fun _ => rfl⟩

/-- COUNT. -/
def count : StatePart := ⟨fun t s => { t with count := s.count }, fun _ => rfl⟩

/-- The controller. -/
def ctrl : StatePart := ⟨fun t s => { t with ctrl := s.ctrl }, fun _ => rfl⟩

/-- PIN[i], DB[i] and FLAG[i]. -/
def button (i : Button) : StatePart where
  take t s := ((t.writePin i (s.pin.get i)).writeDb i (s.db.get i)).writeFlag i (s.flag.get i)
  take_self s := by cases i <;> rfl

/-- The display side: the transmit unit, the reset line, SEQ with its operands, its configuration and RES, and what
CTRL has still to consume of LINK. -/
def display : StatePart where
  take t s :=
    { t with
      cfg := s.cfg, txbuf := s.txbuf, dc := s.dc, txbusy := s.txbusy, rst := s.rst, seqOp := s.seqOp,
      seqPc := s.seqPc, opx := s.opx, opy := s.opy, opv := s.opv, opm := s.opm, res := s.res,
      linkTodo := s.linkTodo }
  take_self _ := rfl

theorem button_disjoint : ∀ {i j : Button}, j ≠ i → (button j).Disjoint (button i)
  | .confirm, .confirm, h => absurd rfl h
  | .confirm, .start, _ => fun _ _ _ => rfl
  | .start, .confirm, _ => fun _ _ _ => rfl
  | .start, .start, h => absurd rfl h

theorem clkStep_confined : cnt.Confines State.clkStep := fun _ _ => rfl

theorem tickStep_confined : count.Confines State.tickStep := fun _ _ => rfl

theorem txStep_confined : display.Confines State.txStep := by
  intro t s
  have hfree : (display.take t s).txFree = s.txFree := rfl
  simp only [State.txStep, hfree]
  split_ifs <;> rfl

theorem perform_confined (e : Micro) : display.Confines fun s => s.perform e := by
  intro t s
  cases e <;> rfl

theorem advanceSeq_confined (n : Nat) : display.Confines fun s => s.advanceSeq n := by
  intro t s
  have hpc : (display.take t s).seqPc = s.seqPc := rfl
  simp only [State.advanceSeq, hpc]
  split_ifs <;> rfl

theorem seqStep_confined : display.Confines State.seqStep := by
  intro t s
  have hnext : (display.take t s).nextMicro = s.nextMicro := rfl
  have hucode : (display.take t s).ucode = s.ucode := rfl
  cases hmicro : s.nextMicro with
  | none => simp [State.seqStep, hnext, hmicro]
  | some e =>
    simp only [State.seqStep, hnext, hucode, hmicro]
    exact (perform_confined e).comp (advanceSeq_confined _) t s

section Button

variable {i : Button} (t s : State)

@[simp] theorem button_take_pin : ((button i).take t s).pin.get i = s.pin.get i := by simp [button]
@[simp] theorem button_take_db : ((button i).take t s).db.get i = s.db.get i := by simp [button]

@[simp] theorem writePin_button_take (v : Bit) :
    ((button i).take t s).writePin i v = (button i).take t (s.writePin i v) := by cases i <;> rfl
@[simp] theorem writeDb_button_take (v : DebState) :
    ((button i).take t s).writeDb i v = (button i).take t (s.writeDb i v) := by cases i <;> rfl
@[simp] theorem writeFlag_button_take (v : Bit) :
    ((button i).take t s).writeFlag i v = (button i).take t (s.writeFlag i v) := by cases i <;> rfl

end Button

theorem dbStep_confined (i : Button) : (button i).Confines fun s => s.dbStep i := by
  intro t s
  simp only [State.dbStep, State.leaveEvent, State.latchFlag, button_take_pin, button_take_db]
  split_ifs <;> simp

theorem pinFallStep_confined (i : Button) : (button i).Confines fun s => s.pinFallStep i := by
  intro t s
  simp only [State.pinFallStep, State.enterEvent, button_take_pin, writePin_button_take, button_take_db]
  split_ifs <;> simp

theorem pinRiseStep_confined (i : Button) : (button i).Confines fun s => s.pinRiseStep i := by
  intro t s
  simp only [State.pinRiseStep, button_take_pin]
  split_ifs <;> simp

theorem buttonSteps_confined (i : Button) :
    ∀ f ∈ [fun s : State => s.dbStep i, fun s => s.pinFallStep i, fun s => s.pinRiseStep i],
      (button i).Confines f := by
  simp [dbStep_confined, pinFallStep_confined, pinRiseStep_confined]

end StatePart

/-- Settles O36: each agent's steps are confined to a part of the state, and the parts of two agents the statement
names together share no element. -/
theorem eventAgentsCommute : Obligations.EventAgentsCommute := by
  intro s
  refine ⟨rfl, ?_, ?_, ?_, ?_, fun i f hf => ?_⟩
  · exact StatePart.Disjoint.commute (fun _ _ _ => rfl) StatePart.tickStep_confined StatePart.txStep_confined s
  · exact StatePart.Disjoint.commute (fun _ _ _ => rfl) StatePart.clkStep_confined StatePart.txStep_confined s
  · exact StatePart.Disjoint.commute (fun _ _ _ => rfl) StatePart.tickStep_confined StatePart.seqStep_confined s
  · exact StatePart.Disjoint.commute (fun _ _ _ => rfl) StatePart.clkStep_confined StatePart.seqStep_confined s
  · have hf := StatePart.buttonSteps_confined i f hf
    refine ⟨?_, ?_, ?_, ?_, fun j hj g hg => ?_⟩
    · exact StatePart.Disjoint.commute (fun _ _ _ => rfl) hf StatePart.tickStep_confined s
    · exact StatePart.Disjoint.commute (fun _ _ _ => rfl) hf StatePart.clkStep_confined s
    · exact StatePart.Disjoint.commute (fun _ _ _ => rfl) hf StatePart.txStep_confined s
    · exact StatePart.Disjoint.commute (fun _ _ _ => rfl) hf StatePart.seqStep_confined s
    · exact (StatePart.button_disjoint hj).commute (StatePart.buttonSteps_confined j g hg) hf s

end Sys2Proof.Machine
end

section
/-! PROOFS. Nothing outside the controller depends on the controller (20_memory.md rule R61): every agent but CTRL
makes the same of the machine with another controller in its place, and CTRL only moves on in LINK. -/

namespace Sys2Proof.Machine

/-- The machine with another controller in its place. -/
def State.withCtrl (c : Ctrl) (s : State) : State := { s with ctrl := c }

variable (c : Ctrl) (s : State)

theorem State.withCtrl_confined : StatePart.ctrl.Confines (State.withCtrl c) := fun _ _ => rfl

/-- A step confined to a part without the controller. -/
theorem StatePart.Confines.withCtrl {p : StatePart} {u : State → State} (hu : p.Confines u) (h : p.Disjoint .ctrl) :
    Host.Outcome.next (u (s.withCtrl c)) = mapNext (State.withCtrl c) (.next (u s)) :=
  congrArg Host.Outcome.next (h.commute hu (State.withCtrl_confined c) s)

/-- An operation whose effect at the port neither reads nor writes the controller. -/
theorem exec_withCtrl_of_onPort {i : Instr} {f : State → State} (hi : ∀ s, exec i s = s.onPort f)
    (hf : ∀ s, f (s.withCtrl c) = (f s).withCtrl c) :
    exec i (s.withCtrl c) = mapNext (State.withCtrl c) (exec i s) := by
  rw [hi, hi]
  by_cases hidle : s.seqOp = .none
  · rw [State.onPort_free hidle, State.onPort_free (s := s.withCtrl c) hidle, hf, mapNext]
  · rw [State.onPort_closed hidle, State.onPort_closed (s := s.withCtrl c) hidle, mapNext]

theorem exec_withCtrl {d : Descriptor} {i : Instr} (hd : decode d = some i) :
    exec i (s.withCtrl c) = mapNext (State.withCtrl c) (exec i s) := by
  cases row_of_decode hd with
  | send => exact exec_withCtrl_of_onPort c s (exec_send _ _) fun _ => rfl
  | init => exact exec_withCtrl_of_onPort c s exec_init fun _ => rfl
  | clear => exact exec_withCtrl_of_onPort c s (exec_clear _) fun _ => rfl
  | setPixel => exact exec_withCtrl_of_onPort c s (exec_setPixel _ _ _) fun _ => rfl
  | tmrrd => exact exec_withCtrl_of_onPort c s exec_tmrrd fun _ => rfl
  | elapsed => exact exec_withCtrl_of_onPort c s (exec_elapsed _ _) fun _ => rfl
  | cntrst => exact exec_withCtrl_of_onPort c s exec_cntrst fun _ => rfl
  | cntrd => exact exec_withCtrl_of_onPort c s exec_cntrd fun _ => rfl
  | flagrd => exact exec_withCtrl_of_onPort c s (exec_flagrd _) fun _ => rfl
  | flagclr => exact exec_withCtrl_of_onPort c s (exec_flagclr _) fun _ => rfl
  | flagrc => exact exec_withCtrl_of_onPort c s (exec_flagrc _) fun _ => rfl

theorem State.present_withCtrl (d : Descriptor) :
    (s.withCtrl c).present d = mapNext (State.withCtrl c) (s.present d) := by
  cases hd : decode d with
  | none => simp [State.present, hd, mapNext]
  | some i => simp [State.present, hd, exec_withCtrl c s hd]

theorem State.presentInstr_withCtrl (i : Instr) :
    (s.withCtrl c).presentInstr i = mapNext (State.withCtrl c) (s.presentInstr i) := by
  have hcfg : (s.withCtrl c).cfg = s.cfg := rfl
  cases hword : encode s.cfg i with
  | descriptor d => simp [State.presentInstr, hcfg, hword, State.present_withCtrl]
  | frame f => simp [State.presentInstr, hcfg, hword, mapNext]

/-- The engine reads the configuration, RES and the draws. -/
theorem State.engineTurn_withCtrl (e : Engine) :
    (s.withCtrl c).engineTurn e = mapNext (State.withCtrl c) (s.engineTurn e) := by
  have hturn : e.turn (s.withCtrl c).cfg (s.withCtrl c).res (s.withCtrl c).draws = e.turn s.cfg s.res s.draws := rfl
  cases hop : (e.turn s.cfg s.res s.draws).2 with
  | none =>
    simp only [State.engineTurn, hturn, hop]
    rfl
  | some i =>
    simp only [State.engineTurn, hturn, hop]
    exact State.presentInstr_withCtrl c { s with host := _, draws := _ } i

theorem State.hostStep_withCtrl : (s.withCtrl c).hostStep = mapNext (State.withCtrl c) s.hostStep := by
  have hhost : (s.withCtrl c).host = s.host := rfl
  by_cases hidle : s.seqOp = .none
  · have hfree := State.portFree_iff.2 hidle
    have hfree' : (s.withCtrl c).portFree = true := hfree
    simp only [State.hostStep, hfree, hfree', hhost, if_true]
    match s.host with
    | .queue [] => rfl
    | .queue (d :: ds) => exact State.present_withCtrl c { s with host := .queue ds } d
    | .engine e => exact State.engineTurn_withCtrl c s e
  · rw [State.hostStep_of_portClosed hidle, State.hostStep_of_portClosed (s := s.withCtrl c) hidle, mapNext]

/-- A turn of any agent but CTRL. -/
theorem State.agentStep_withCtrl {a : Agent} (ha : a ≠ .ctrl) :
    (s.withCtrl c).agentStep a = mapNext (State.withCtrl c) (s.agentStep a) := by
  cases a with
  | host => exact s.hostStep_withCtrl c
  | seq => exact StatePart.seqStep_confined.withCtrl c s fun _ _ _ => rfl
  | tx => exact StatePart.txStep_confined.withCtrl c s fun _ _ _ => rfl
  | clk => exact StatePart.clkStep_confined.withCtrl c s fun _ _ _ => rfl
  | tick => exact StatePart.tickStep_confined.withCtrl c s fun _ _ _ => rfl
  | db i => exact (StatePart.dbStep_confined i).withCtrl c s fun _ _ _ => rfl
  | pinFall i => exact (StatePart.pinFallStep_confined i).withCtrl c s fun _ _ _ => rfl
  | pinRise i => exact (StatePart.pinRiseStep_confined i).withCtrl c s fun _ _ _ => rfl
  | ctrl => exact absurd rfl ha

/-- A turn of CTRL takes the next event from LINK whatever the controller makes of it. -/
theorem State.ctrlStep_withCtrl :
    mapNext State.withoutCtrl (s.withCtrl c).ctrlStep = mapNext State.withoutCtrl s.ctrlStep := by
  cases htodo : s.linkTodo with
  | nil =>
    rw [State.ctrlStep_of_linkTodo_nil htodo, State.ctrlStep_of_linkTodo_nil (s := s.withCtrl c) htodo]
    rfl
  | cons e es =>
    rw [State.ctrlStep_cons htodo, State.ctrlStep_cons (s := s.withCtrl c) htodo]
    rfl

theorem mapNext_withoutCtrl_withCtrl (o : Host.Outcome State Fault Refusal) :
    mapNext State.withoutCtrl (mapNext (State.withCtrl c) o) = mapNext State.withoutCtrl o := by
  cases o <;> rfl

theorem State.consumeChoice_withCtrl : (s.withCtrl c).consumeChoice = s.consumeChoice.withCtrl c := by
  have hsched : (s.withCtrl c).sched = s.sched := rfl
  unfold State.consumeChoice
  cases h : s.sched <;> simp only [hsched, h] <;> rfl

/-- Settles O35: which agent moves does not depend on the controller, nor does the turn of any but CTRL; and CTRL's
turn differs in the controller alone. -/
theorem blockNeverReadsController : Obligations.BlockNeverReadsController := by
  intro s c
  have hstep : step (s.withCtrl c) = (s.consumeChoice.withCtrl c).agentStep s.nextAgent :=
    congrArg (State.agentStep · s.nextAgent) (s.consumeChoice_withCtrl c)
  change mapNext State.withoutCtrl (step (s.withCtrl c)) = _
  rw [hstep]
  by_cases ha : s.nextAgent = .ctrl
  · simp only [step, State.oneStep, ha]
    exact s.consumeChoice.ctrlStep_withCtrl c
  · rw [State.agentStep_withCtrl c _ ha, mapNext_withoutCtrl_withCtrl]
    rfl

end Sys2Proof.Machine
end

section
/-! PROOFS. What the host's operations leave alone, and what puts an event on the link (10_state.md rule R23,
20_memory.md rules R60, R73). -/

namespace Sys2Proof.Machine

variable {s t : State}

/-- The issue step of an operation writes only the operands, SEQ's position, RES, COUNT and the flags. -/
theorem IssueEffect.eq_update {i : Instr} (h : IssueEffect i s t) : t =
    { s with
      opx := t.opx, opy := t.opy, opv := t.opv, opm := t.opm, seqOp := t.seqOp, seqPc := t.seqPc, res := t.res,
      count := t.count, flag := t.flag } := by
  cases h <;> rfl

/-- Only CNTRST writes COUNT. -/
theorem IssueEffect.count {i : Instr} (h : IssueEffect i s t) (hi : i ≠ .cntrst) : t.count = s.count := by
  cases h with
  | issue => rfl
  | setRes => rfl
  | clearCount h => exact absurd h hi
  | clearFlag => rfl

/-- Settles O11: at a closed port nothing changes; at a free one the issue step writes none of these elements. -/
theorem hostOperationsFrame : Obligations.HostOperationsFrame := by
  intro d i s t hd h
  have hflag (j : Button) (hclr : i ≠ .flagclr j) (hrc : i ≠ .flagrc j) : t.flag.get j = s.flag.get j :=
    (exec_flag_cases h j).resolve_right fun hj => hj.1.elim hclr hrc
  obtain ⟨-, rfl⟩ | ⟨-, heffect⟩ := exec_decoded_cases hd h
  · exact ⟨fun _ => rfl, rfl, rfl, rfl, rfl, rfl, rfl, rfl, rfl, rfl, rfl, rfl, rfl, rfl, fun _ => rfl, hflag⟩
  · have hcount := heffect.count
    rw [heffect.eq_update] at hcount hflag ⊢
    exact ⟨fun _ => rfl, rfl, rfl, rfl, rfl, rfl, rfl, rfl, rfl, rfl, rfl, rfl, rfl, rfl, hcount, hflag⟩

/-- What SEQ has sent depends on LINK and on the transmit unit. -/
theorem State.sent_congr (hlink : t.link = s.link) (hbuf : t.txbuf = s.txbuf) (hdc : t.dc = s.dc)
    (hbusy : t.txbusy = s.txbusy) : t.sent = s.sent := by
  simp [State.sent, State.inFlight, State.txFree, hlink, hbuf, hdc, hbusy]

/-- A micro-event is sent as it is performed: an event at once, a frame by way of the transmit unit. -/
theorem State.sent_perform (h : s.txbusy = 0#1) (m : Micro) : (s.perform m).sent = s.sent ++ [m.event] := by
  cases m <;> simp [State.sent, State.inFlight, State.txFree, State.link, State.perform, Micro.event, h]

@[simp] theorem State.sent_advanceSeq (s : State) (n : Nat) : (s.advanceSeq n).sent = s.sent := by
  obtain ⟨-, e⟩ | ⟨-, e⟩ := s.advanceSeq_cases n <;> rw [e] <;> rfl

theorem State.sent_seqStep (s : State) : s.seqStep.sent = s.sent ∨
    s.txbusy = 0#1 ∧ ∃ m, s.ucode[s.seqPc]? = some m ∧ s.seqStep.sent = s.sent ++ [m.event] := by
  obtain ⟨m, hbusy, hm, e⟩ | ⟨-, e⟩ := s.seqStep_cases
  · exact .inr ⟨hbusy, m, hm, by rw [e, State.sent_advanceSeq, State.sent_perform hbusy]⟩
  · exact .inl (by rw [e])

/-- TX moves the frame in flight to LINK. -/
theorem State.sent_txStep (s : State) : s.txStep.sent = s.sent := by
  obtain ⟨hbusy, e⟩ | ⟨-, e⟩ := s.txStep_cases
  · simp [e, State.sent, State.inFlight, State.txFree, State.link, hbusy]
  · rw [e]

/-- CTRL moves an event from one part of LINK to the other. -/
theorem State.sent_ctrlStep (h : s.ctrlStep = .next t) : t.sent = s.sent := by
  cases htodo : s.linkTodo with
  | nil =>
    rw [State.ctrlStep_of_linkTodo_nil htodo] at h
    cases h
    rfl
  | cons e es =>
    rw [State.ctrlStep_cons htodo] at h
    cases h
    refine State.sent_congr ?_ rfl rfl rfl
    simp [State.link, htodo]

/-- HOST puts nothing on the link (O11). -/
theorem State.sent_hostStep (h : s.hostStep = .next t) : t.sent = s.sent := by
  obtain ⟨g, n, -, rfl⟩ | ⟨-, g, n, d, i, hd, he⟩ := State.hostStep_cases h
  · rfl
  · obtain ⟨-, -, hlink, -, hbuf, hdc, hbusy, -⟩ := hostOperationsFrame d i _ t hd he
    exact State.sent_congr hlink hbuf hdc hbusy

/-- A step confined to the elements of a button sends nothing. -/
theorem StatePart.Confines.sent_of_button {u : State → State} {i : Button} (h : (StatePart.button i).Confines u)
    (s : State) : (u s).sent = s.sent := by
  rw [h.eq_take]
  rfl

/-- A turn of any agent but SEQ leaves what has been sent as it was. -/
theorem State.sent_agentStep {a : Agent} (ha : a ≠ .seq) (h : s.agentStep a = .next t) : t.sent = s.sent := by
  cases a with
  | host => exact State.sent_hostStep h
  | seq => exact absurd rfl ha
  | ctrl => exact State.sent_ctrlStep h
  | tx => cases h; exact s.sent_txStep
  | clk => cases h; rfl
  | tick => cases h; rfl
  | db i => cases h; exact (StatePart.dbStep_confined i).sent_of_button s
  | pinFall i => cases h; exact (StatePart.pinFallStep_confined i).sent_of_button s
  | pinRise i => cases h; exact (StatePart.pinRiseStep_confined i).sent_of_button s

/-- Settles O31: only a turn of SEQ sends, and it sends the micro-event at SEQ.pc; the scheduling choice before the
turn touches neither. -/
theorem sentGrowsByMicroEvents : Obligations.SentGrowsByMicroEvents := by
  intro s t hstep
  have hsent : s.consumeChoice.sent = s.sent := by
    rw [State.consumeChoice_eq]
    rfl
  by_cases ha : s.nextAgent = .seq
  · simp only [step, State.oneStep, ha, State.agentStep] at hstep
    cases hstep
    rw [State.consumeChoice_eq] at hsent ⊢
    exact (State.sent_seqStep _).imp_right fun h => ⟨ha, h⟩
  · exact .inl ((State.sent_agentStep ha hstep).trans hsent)

end Sys2Proof.Machine
end

section
/-! PROOFS. Decoding and encoding are inverse, and the opcode map accepts what the rows of match and mask accept
(30_encoding.md rules R91 to R101, R105). -/

namespace Sys2Proof

variable {cfg : Cfg} {d : Descriptor} {f : DescFields} {i : Instr}

/-! What each format asks of the fields (rule R92). -/

theorem DescFields.isZ_iff : f.isZ = true ↔ f.m = 0#1 ∧ f.x = 0#16 ∧ f.y = 0#16 ∧ f.v = 0#16 :=
  decide_eq_true_iff
theorem DescFields.isB_iff : f.isB = true ↔ f.x = 0#16 ∧ f.y = 0#16 ∧ hiByte f.v = 0#8 := decide_eq_true_iff
theorem DescFields.isC_iff : f.isC = true ↔ f.m = 0#1 ∧ f.x = 0#16 ∧ f.y = 0#16 := decide_eq_true_iff
theorem DescFields.isP_iff : f.isP = true ↔ f.m = 0#1 := decide_eq_true_iff
theorem DescFields.isE_iff : f.isE = true ↔ f.m = 0#1 ∧ f.v = 0#16 := decide_eq_true_iff
theorem DescFields.isF_iff : f.isF = true ↔ f.x = 0#16 ∧ f.y = 0#16 ∧ f.v = 0#16 := decide_eq_true_iff

theorem DescFields.toBits_of_z7 (hz : f.z7 = 0#7) : f.toBits = mkDescriptor f.opc f.m f.x f.y f.v := by
  simp [mkDescriptor, ← hz]

theorem joinBytes_zero_loByte {v : Half} (h : hiByte v = 0#8) : joinBytes 0#8 (loByte v) = v := by
  rw [← h, joinBytes_hiByte_loByte]

/-- The word of a row's instruction has the row's fields: what the instruction does not carry is fixed by the opcode
and the format. -/
theorem DescFields.Row.encode_eq (h : f.Row i) (hz : f.z7 = 0#7) (cfg : Cfg) :
    encode cfg i = .descriptor f.toBits := by
  rw [DescFields.toBits_of_z7 hz]
  cases h with
  | send opc fmt =>
    obtain ⟨hx, hy, hv⟩ := DescFields.isB_iff.1 fmt
    simp [encode, opc, hx, hy, joinBytes_zero_loByte hv]
  | init opc fmt => simp [encode, opc, DescFields.isZ_iff.1 fmt]
  | clear opc fmt => simp [encode, opc, DescFields.isC_iff.1 fmt]
  | setPixel opc fmt => simp [encode, opc, DescFields.isP_iff.1 fmt]
  | tmrrd opc fmt => simp [encode, opc, DescFields.isZ_iff.1 fmt]
  | elapsed opc fmt => simp [encode, opc, DescFields.isE_iff.1 fmt]
  | cntrst opc fmt => simp [encode, opc, DescFields.isZ_iff.1 fmt]
  | cntrd opc fmt => simp [encode, opc, DescFields.isZ_iff.1 fmt]
  | flagrd opc fmt => simp [encode, opc, DescFields.isF_iff.1 fmt, bit_buttonOfBit]
  | flagclr opc fmt => simp [encode, opc, DescFields.isF_iff.1 fmt, bit_buttonOfBit]
  | flagrc opc fmt => simp [encode, opc, DescFields.isF_iff.1 fmt, bit_buttonOfBit]

theorem encode_of_decode (h : decode d = some i) (cfg : Cfg) : encode cfg i = .descriptor d := by
  rw [(row_of_decode h).encode_eq (decode_eq_some.1 h).1, DescFields.toBits_ofBits]

theorem encode_instr (cfg : Cfg) (sym : LinkCmd) :
    encode cfg sym.instr = .frame (frameBits 0#1 (cfg.cmdByte sym)) := by
  cases sym <;> rfl

/-- Everything a frame can decode to: a data row, or the row of the symbol its byte names. -/
theorem decodeFrame_cases {w : BitVec 9} (h : decodeFrame cfg w = some i) :
    (frameDc w = 1#1 ∧ i = .linkData (frameByte w)) ∨
    ∃ sym : LinkCmd, frameDc w = 0#1 ∧ frameByte w = cfg.cmdByte sym ∧ i = sym.instr := by
  unfold decodeFrame at h
  split at h
  · next hdc => exact .inl ⟨hdc, (Option.some.inj h).symm⟩
  · next hdc =>
    obtain ⟨sym, hsym, rfl⟩ := Option.map_eq_some_iff.1 h
    exact .inr ⟨sym, (Bit.eq_zero_or_one _).resolve_right hdc, (Cfg.cmdByte_of_symbolOf hsym).symm, rfl⟩

theorem encode_of_decodeFrame {w : BitVec 9} (h : decodeFrame cfg w = some i) : encode cfg i = .frame w := by
  conv_rhs => rw [← frameBits_frameDc_frameByte w]
  obtain ⟨hdc, rfl⟩ | ⟨sym, hdc, hbyte, rfl⟩ := decodeFrame_cases h
  · rw [hdc]
    rfl
  · rw [encode_instr, hdc, hbyte]

theorem decodeFrame_command (h : cfg.CommandsDistinct) (sym : LinkCmd) :
    decodeFrame cfg (frameBits 0#1 (cfg.cmdByte sym)) = some sym.instr := by
  simp [decodeFrame, frameDc_frameBits, frameByte_frameBits, Cfg.symbolOf_cmdByte h]

theorem decodeFrame_data (cfg : Cfg) (b : Byte) : decodeFrame cfg (frameBits 1#1 b) = some (.linkData b) := by
  simp [decodeFrame, frameDc_frameBits, frameByte_frameBits]

/-- Settles O2: a descriptor has the fields of a row and Z7 = 0, a frame is a data frame or a symbol's command frame,
and each of these is the word of its instruction. -/
theorem encodeOfDecodeIsIdentity : Obligations.EncodeOfDecodeIsIdentity := by
  intro cfg w i h
  cases w with
  | descriptor d => exact encode_of_decode h cfg
  | frame w => exact encode_of_decodeFrame h

/-- Settles O1: an instruction has a word that decodes to it, and by O2 that word is the one encode writes. -/
theorem decodeOfEncodeIsIdentity : Obligations.DecodeOfEncodeIsIdentity := by
  intro cfg i hdistinct
  obtain ⟨d, hd⟩ | ⟨sym, rfl⟩ | ⟨b, rfl⟩ := Machine.Instr.word_cases i
  · rw [encode_of_decode hd]
    exact hd
  · rw [encode_instr]
    exact decodeFrame_command hdistinct sym
  · exact decodeFrame_data cfg b

/-- The opcode map answers on the fields of a row. -/
theorem DescFields.Row.decodeFields_eq (h : f.Row i) : decodeFields f = some i := by
  cases h with
  | send opc fmt => simp [decodeFields, opc, fmt]
  | init opc fmt => simp [decodeFields, opc, fmt]
  | clear opc fmt => simp [decodeFields, opc, fmt]
  | setPixel opc fmt => simp [decodeFields, opc, fmt]
  | tmrrd opc fmt => simp [decodeFields, opc, fmt]
  | elapsed opc fmt => simp [decodeFields, opc, fmt]
  | cntrst opc fmt => simp [decodeFields, opc, fmt]
  | cntrd opc fmt => simp [decodeFields, opc, fmt]
  | flagrd opc fmt => simp [decodeFields, opc, fmt]
  | flagclr opc fmt => simp [decodeFields, opc, fmt]
  | flagrc opc fmt => simp [decodeFields, opc, fmt]

theorem decode_eq_some_iff_row : decode d = some i ↔
    (DescFields.ofBits d).z7 = 0#7 ∧ (DescFields.ofBits d).Row i := by
  rw [decode_eq_some]
  exact and_congr_right fun _ => ⟨DescFields.row_of_decodeFields, DescFields.Row.decodeFields_eq⟩

/-- `D & mask = match`, field by field (rules R91, R94). -/
theorem Descriptor.selects_iff {m k : Descriptor} : Descriptor.Selects d (m, k) ↔
    (DescFields.ofBits d).opc &&& (DescFields.ofBits k).opc = (DescFields.ofBits m).opc ∧
    (DescFields.ofBits d).z7 &&& (DescFields.ofBits k).z7 = (DescFields.ofBits m).z7 ∧
    (DescFields.ofBits d).m &&& (DescFields.ofBits k).m = (DescFields.ofBits m).m ∧
    (DescFields.ofBits d).x &&& (DescFields.ofBits k).x = (DescFields.ofBits m).x ∧
    (DescFields.ofBits d).y &&& (DescFields.ofBits k).y = (DescFields.ofBits m).y ∧
    (DescFields.ofBits d).v &&& (DescFields.ofBits k).v = (DescFields.ofBits m).v := by
  have hbits : Descriptor.Selects d (m, k) ↔ DescFields.ofBits (d &&& k) = DescFields.ofBits m :=
    ⟨congrArg DescFields.ofBits, Laws.ofBits_injective⟩
  rw [hbits, Laws.ofBits_and, ← DescFields.mk.injEq]

/-! A field under a mask of ones is the whole field. -/

theorem and_ones_byte (b : Byte) : b &&& 0xFF#8 = b := BitVec.and_allOnes
theorem and_ones_z7 (b : BitVec 7) : b &&& 0x7F#7 = b := BitVec.and_allOnes
theorem and_ones_bit (b : Bit) : b &&& 1#1 = b := BitVec.and_allOnes
theorem and_ones_half (v : Half) : v &&& 0xFFFF#16 = v := BitVec.and_allOnes

theorem hiByte_eq_zero_iff {v : Half} : hiByte v = 0#8 ↔ v &&& 0xFF00#16 = 0#16 := by
  constructor
  · intro h
    rw [← joinBytes_zero_loByte h]
    exact Laws.joinBytes_zero_and _
  · intro h
    calc hiByte v
      _ = hiByte (v &&& 0xFF00#16) := by simp [hiByte, BitVec.extractLsb'_and, and_ones_byte]
      _ = 0#8 := by rw [h]; rfl

/-! The descriptors of each format: those with the opcode, Z7 = 0 and the format's zero fields (rules R92, R94). -/

theorem Descriptor.selects_formatZ (opc : Byte) :
    Descriptor.Selects d (mkDescriptor opc 0#1 0#16 0#16 0#16, 0xFFFFFFFFFFFFFFFF#64) ↔
      (DescFields.ofBits d).opc = opc ∧ (DescFields.ofBits d).z7 = 0#7 ∧ (DescFields.ofBits d).isZ = true := by
  rw [Descriptor.selects_iff, mkDescriptor, DescFields.ofBits_toBits, DescFields.isZ_iff]
  generalize DescFields.ofBits d = f
  simp [DescFields.ofBits, and_ones_byte, and_ones_z7, and_ones_bit, and_ones_half]

theorem Descriptor.selects_formatB (opc : Byte) :
    Descriptor.Selects d (mkDescriptor opc 0#1 0#16 0#16 0#16, 0xFFFEFFFFFFFFFF00#64) ↔
      (DescFields.ofBits d).opc = opc ∧ (DescFields.ofBits d).z7 = 0#7 ∧ (DescFields.ofBits d).isB = true := by
  rw [Descriptor.selects_iff, mkDescriptor, DescFields.ofBits_toBits, DescFields.isB_iff, hiByte_eq_zero_iff]
  generalize DescFields.ofBits d = f
  simp [DescFields.ofBits, and_ones_byte, and_ones_z7, and_ones_half]

theorem Descriptor.selects_formatC (opc : Byte) :
    Descriptor.Selects d (mkDescriptor opc 0#1 0#16 0#16 0#16, 0xFFFFFFFFFFFF0000#64) ↔
      (DescFields.ofBits d).opc = opc ∧ (DescFields.ofBits d).z7 = 0#7 ∧ (DescFields.ofBits d).isC = true := by
  rw [Descriptor.selects_iff, mkDescriptor, DescFields.ofBits_toBits, DescFields.isC_iff]
  generalize DescFields.ofBits d = f
  simp [DescFields.ofBits, and_ones_byte, and_ones_z7, and_ones_bit, and_ones_half]

theorem Descriptor.selects_formatP (opc : Byte) :
    Descriptor.Selects d (mkDescriptor opc 0#1 0#16 0#16 0#16, 0xFFFF000000000000#64) ↔
      (DescFields.ofBits d).opc = opc ∧ (DescFields.ofBits d).z7 = 0#7 ∧ (DescFields.ofBits d).isP = true := by
  rw [Descriptor.selects_iff, mkDescriptor, DescFields.ofBits_toBits, DescFields.isP_iff]
  generalize DescFields.ofBits d = f
  simp [DescFields.ofBits, and_ones_byte, and_ones_z7, and_ones_bit]

theorem Descriptor.selects_formatE (opc : Byte) :
    Descriptor.Selects d (mkDescriptor opc 0#1 0#16 0#16 0#16, 0xFFFF00000000FFFF#64) ↔
      (DescFields.ofBits d).opc = opc ∧ (DescFields.ofBits d).z7 = 0#7 ∧ (DescFields.ofBits d).isE = true := by
  rw [Descriptor.selects_iff, mkDescriptor, DescFields.ofBits_toBits, DescFields.isE_iff]
  generalize DescFields.ofBits d = f
  simp [DescFields.ofBits, and_ones_byte, and_ones_z7, and_ones_bit, and_ones_half]

theorem Descriptor.selects_formatF (opc : Byte) :
    Descriptor.Selects d (mkDescriptor opc 0#1 0#16 0#16 0#16, 0xFFFEFFFFFFFFFFFF#64) ↔
      (DescFields.ofBits d).opc = opc ∧ (DescFields.ofBits d).z7 = 0#7 ∧ (DescFields.ofBits d).isF = true := by
  rw [Descriptor.selects_iff, mkDescriptor, DescFields.ofBits_toBits, DescFields.isF_iff]
  generalize DescFields.ofBits d = f
  simp [DescFields.ofBits, and_ones_byte, and_ones_z7, and_ones_half]

/-- A row of match and mask that a descriptor selects is the row of the opcode map its fields are in. -/
theorem exists_row_of_selects {r : Descriptor × Descriptor} (hr : r ∈ descriptorRows)
    (h : Descriptor.Selects d r) : (DescFields.ofBits d).z7 = 0#7 ∧ ∃ i, (DescFields.ofBits d).Row i := by
  simp only [descriptorRows, List.mem_cons, List.not_mem_nil, or_false] at hr
  obtain rfl | rfl | rfl | rfl | rfl | rfl | rfl | rfl | rfl | rfl | rfl := hr
  · obtain ⟨opc, hz, fmt⟩ := (Descriptor.selects_formatB 0x01#8).1 h
    exact ⟨hz, _, .send opc fmt⟩
  · obtain ⟨opc, hz, fmt⟩ := (Descriptor.selects_formatZ 0x02#8).1 h
    exact ⟨hz, _, .init opc fmt⟩
  · obtain ⟨opc, hz, fmt⟩ := (Descriptor.selects_formatC 0x03#8).1 h
    exact ⟨hz, _, .clear opc fmt⟩
  · obtain ⟨opc, hz, fmt⟩ := (Descriptor.selects_formatP 0x04#8).1 h
    exact ⟨hz, _, .setPixel opc fmt⟩
  · obtain ⟨opc, hz, fmt⟩ := (Descriptor.selects_formatZ 0x10#8).1 h
    exact ⟨hz, _, .tmrrd opc fmt⟩
  · obtain ⟨opc, hz, fmt⟩ := (Descriptor.selects_formatE 0x11#8).1 h
    exact ⟨hz, _, .elapsed opc fmt⟩
  · obtain ⟨opc, hz, fmt⟩ := (Descriptor.selects_formatZ 0x12#8).1 h
    exact ⟨hz, _, .cntrst opc fmt⟩
  · obtain ⟨opc, hz, fmt⟩ := (Descriptor.selects_formatZ 0x13#8).1 h
    exact ⟨hz, _, .cntrd opc fmt⟩
  · obtain ⟨opc, hz, fmt⟩ := (Descriptor.selects_formatF 0x20#8).1 h
    exact ⟨hz, _, .flagrd opc fmt⟩
  · obtain ⟨opc, hz, fmt⟩ := (Descriptor.selects_formatF 0x21#8).1 h
    exact ⟨hz, _, .flagclr opc fmt⟩
  · obtain ⟨opc, hz, fmt⟩ := (Descriptor.selects_formatF 0x22#8).1 h
    exact ⟨hz, _, .flagrc opc fmt⟩

/-- The fields of a row of the opcode map select a row of match and mask. -/
theorem DescFields.Row.wellFormed (h : (DescFields.ofBits d).Row i) (hz : (DescFields.ofBits d).z7 = 0#7) :
    Descriptor.WellFormed d := by
  cases h with
  | send opc fmt => exact ⟨_, by decide, (Descriptor.selects_formatB 0x01#8).2 ⟨opc, hz, fmt⟩⟩
  | init opc fmt => exact ⟨_, by decide, (Descriptor.selects_formatZ 0x02#8).2 ⟨opc, hz, fmt⟩⟩
  | clear opc fmt => exact ⟨_, by decide, (Descriptor.selects_formatC 0x03#8).2 ⟨opc, hz, fmt⟩⟩
  | setPixel opc fmt => exact ⟨_, by decide, (Descriptor.selects_formatP 0x04#8).2 ⟨opc, hz, fmt⟩⟩
  | tmrrd opc fmt => exact ⟨_, by decide, (Descriptor.selects_formatZ 0x10#8).2 ⟨opc, hz, fmt⟩⟩
  | elapsed opc fmt => exact ⟨_, by decide, (Descriptor.selects_formatE 0x11#8).2 ⟨opc, hz, fmt⟩⟩
  | cntrst opc fmt => exact ⟨_, by decide, (Descriptor.selects_formatZ 0x12#8).2 ⟨opc, hz, fmt⟩⟩
  | cntrd opc fmt => exact ⟨_, by decide, (Descriptor.selects_formatZ 0x13#8).2 ⟨opc, hz, fmt⟩⟩
  | flagrd opc fmt => exact ⟨_, by decide, (Descriptor.selects_formatF 0x20#8).2 ⟨opc, hz, fmt⟩⟩
  | flagclr opc fmt => exact ⟨_, by decide, (Descriptor.selects_formatF 0x21#8).2 ⟨opc, hz, fmt⟩⟩
  | flagrc opc fmt => exact ⟨_, by decide, (Descriptor.selects_formatF 0x22#8).2 ⟨opc, hz, fmt⟩⟩

theorem decode_ne_none_iff : decode d ≠ none ↔ Descriptor.WellFormed d := by
  rw [Option.ne_none_iff_exists']
  constructor
  · rintro ⟨i, h⟩
    obtain ⟨hz, hrow⟩ := decode_eq_some_iff_row.1 h
    exact hrow.wellFormed hz
  · rintro ⟨r, hr, h⟩
    obtain ⟨hz, i, hrow⟩ := exists_row_of_selects hr h
    exact ⟨i, decode_eq_some_iff_row.2 ⟨hz, hrow⟩⟩

theorem decode_eq_none_iff : decode d = none ↔ ¬ Descriptor.WellFormed d :=
  (not_iff_comm.1 decode_ne_none_iff).symm

/-- A descriptor that selects a row has the row's opcode: every mask covers OPC. -/
theorem Descriptor.Selects.opc_eq {r : Descriptor × Descriptor} (hr : r ∈ descriptorRows)
    (h : Descriptor.Selects d r) : (DescFields.ofBits d).opc = (DescFields.ofBits r.1).opc := by
  have hmask : ∀ r ∈ descriptorRows, (DescFields.ofBits r.2).opc = 0xFF#8 := by
    simp [descriptorRows, DescFields.ofBits]
  have hopc := (Descriptor.selects_iff.1 h).1
  rwa [hmask r hr, and_ones_byte] at hopc

/-- No two rows share an opcode. -/
theorem descriptorRows_opc_nodup : (descriptorRows.map fun r => (DescFields.ofBits r.1).opc).Nodup := by
  simp [descriptorRows, DescFields.ofBits]

/-- Settles O3: the format of a row's mask is the format of the opcode map's row, and the opcode of a descriptor
names the only row it can select. -/
theorem legalIffSelectsOneRow : Obligations.LegalIffSelectsOneRow := by
  refine fun d => ⟨decode_ne_none_iff, fun r hr r' hr' h h' => ?_⟩
  exact List.inj_on_of_nodup_map descriptorRows_opc_nodup hr hr' ((h.opc_eq hr).symm.trans (h'.opc_eq hr'))

/-- Settles O4, by running the decoder on the six words. -/
theorem specWordsDecode : Obligations.SpecWordsDecode := by
  unfold Obligations.SpecWordsDecode
  decide

end Sys2Proof
end

section
/-! PROOFS. What a turn of HOST makes of a presented descriptor (30_encoding.md rules R93, R105): an issue step at a
free port, nothing at a closed one, a refusal of an illegal descriptor, and no other stop (60_exceptions.md R290). -/

namespace Sys2Proof.Machine

variable {s : State}

theorem State.present_of_decode {d : Descriptor} {i : Instr} (h : decode d = some i) (s : State) :
    s.present d = exec i s := by
  simp [State.present, h]

theorem State.present_of_illegal {d : Descriptor} (h : ¬ Descriptor.WellFormed d) (s : State) :
    s.present d = .refused (.illegalOp d) := by
  simp [State.present, decode_eq_none_iff.2 h]

/-- A turn of HOST at a free port presents the head of its list. -/
theorem State.hostStep_of_queue_cons {d : Descriptor} {ds : List Descriptor} (hidle : s.seqOp = .none)
    (hhost : s.host = .queue (d :: ds)) : s.hostStep = ({ s with host := .queue ds } : State).present d := by
  simp [State.hostStep, State.portFree_iff.2 hidle, hhost]

/-- A step in which HOST presents the head of its list. -/
theorem step_of_presented {rest : List Agent} {d : Descriptor} {ds : List Descriptor} (hsched : s.sched = .host :: rest)
    (hidle : s.seqOp = .none) (hhost : s.host = .queue (d :: ds)) :
    step s = ({ s with sched := rest, host := .queue ds } : State).present d :=
  (step_cons hsched).trans (State.hostStep_of_queue_cons (s := { s with sched := rest }) hidle hhost)

/-- Settles O12: HOST presents the head of its list, which decodes. -/
theorem stepRunsPresentedDescriptor : Obligations.StepRunsPresentedDescriptor := by
  intro s rest d ds i hsched hidle hhost hd
  rw [step_of_presented hsched hidle hhost, State.present_of_decode hd]

/-- Settles O13: HOST presents the head of its list, which does not decode (O3). -/
theorem illegalDescriptorIsRefused : Obligations.IllegalDescriptorIsRefused := by
  intro s rest d ds hsched hidle hhost hillegal
  rw [step_of_presented hsched hidle hhost, State.present_of_illegal hillegal]

theorem exec_of_portClosed {d : Descriptor} {i : Instr} (hd : decode d = some i) (h : s.seqOp ≠ .none) :
    exec i s = .next s := by
  obtain ⟨f, hf, -⟩ := exec_of_decode hd
  rw [hf, State.onPort_closed h]

/-- Settles O9: every operation goes through the port, and HOST looks at the port before it presents. -/
theorem closedPortChangesNothing : Obligations.ClosedPortChangesNothing := by
  refine ⟨fun d i s hd h => exec_of_portClosed hd h, fun s rest hsched h => ?_⟩
  exact (step_cons hsched).trans (State.hostStep_of_portClosed (s := { s with sched := rest }) h)

/-- SEND's operand is the byte extended by zeros (rule R95). -/
theorem byteOperand_eq_zeroExtend (b : Byte) : byteOperand b = b.zeroExtend 16 := by
  apply BitVec.eq_of_toNat_eq
  calc (byteOperand b).toNat
    _ = b.toNat := (BitVec.toNat_append 0#8 b).trans (by simp)
    _ = (b.zeroExtend 16).toNat := by simp; omega

/-- Settles O5: each of the four goes through the free port to its issue step. -/
theorem displayOperationsIssue : Obligations.DisplayOperationsIssue := by
  refine fun s hidle => ⟨fun b dc => ?_, ?_, fun c => ?_, fun x y c => ?_⟩
  · rw [exec_send, State.onPort_free hidle, byteOperand_eq_zeroExtend]
    rfl
  · rw [exec_init, State.onPort_free hidle]
    rfl
  · rw [exec_clear, State.onPort_free hidle]
    rfl
  · rw [exec_setPixel, State.onPort_free hidle]
    rfl

/-- Every instruction answers in every state: at the port it issues or passes, on the link it is received. -/
theorem exec_answers (i : Instr) (s : State) : ∃ t, exec i s = .next t := by
  obtain ⟨d, hd⟩ | ⟨sym, rfl⟩ | ⟨b, rfl⟩ := Instr.word_cases i
  · obtain ⟨f, hf, -⟩ := exec_of_decode hd
    rw [hf]
    by_cases hidle : s.seqOp = .none
    · exact ⟨f s, State.onPort_free hidle⟩
    · exact ⟨s, State.onPort_closed hidle⟩
  · exact ⟨_, exec_instr sym s⟩
  · exact ⟨_, exec_linkData b s⟩

/-- A descriptor that encode writes decodes, whatever the configuration. -/
theorem decode_of_encode {cfg : Cfg} {i : Instr} {d : Descriptor} (h : encode cfg i = .descriptor d) :
    decode d = some i := by
  obtain ⟨d', hd'⟩ | ⟨sym, rfl⟩ | ⟨b, rfl⟩ := Instr.word_cases i
  · obtain rfl : d' = d := Encoded.descriptor.inj ((encode_of_decode hd' cfg).symm.trans h)
    exact hd'
  · rw [encode_instr] at h
    cases h
  · cases h

theorem State.presentInstr_answers (i : Instr) (s : State) : ∃ t, s.presentInstr i = .next t := by
  cases hword : encode s.cfg i with
  | descriptor d =>
    simp only [State.presentInstr, hword, State.present_of_decode (decode_of_encode hword)]
    exact exec_answers i s
  | frame f => exact ⟨s, by simp only [State.presentInstr, hword]⟩

/-- The engine presents only instructions. -/
theorem State.engineTurn_answers (e : Engine) (s : State) : ∃ t, s.engineTurn e = .next t := by
  unfold State.engineTurn
  split
  · exact ⟨_, rfl⟩
  · exact State.presentInstr_answers _ _

/-- A turn of HOST answers, or its list is headed by an illegal descriptor at a free port. -/
theorem State.hostStep_answers_or_refuses (s : State) : (∃ t, s.hostStep = .next t) ∨
    ∃ d ds, s.host = .queue (d :: ds) ∧ s.seqOp = .none ∧ ¬ Descriptor.WellFormed d ∧
      s.hostStep = .refused (.illegalOp d) := by
  by_cases hidle : s.seqOp = .none
  · match hhost : s.host with
    | .queue [] => exact .inl ⟨s, State.hostStep_of_queue_nil hhost⟩
    | .queue (d :: ds) =>
      rw [State.hostStep_of_queue_cons hidle hhost]
      by_cases hd : Descriptor.WellFormed d
      · obtain ⟨i, hi⟩ := Option.ne_none_iff_exists'.1 (decode_ne_none_iff.2 hd)
        rw [State.present_of_decode hi]
        exact .inl (exec_answers i _)
      · exact .inr ⟨d, ds, rfl, hidle, hd, State.present_of_illegal hd _⟩
    | .engine e =>
      simp only [State.hostStep, State.portFree_iff.2 hidle, hhost, if_true]
      exact .inl (s.engineTurn_answers e)
  · exact .inl ⟨s, State.hostStep_of_portClosed hidle⟩

/-- A turn of any agent but HOST answers. -/
theorem State.agentStep_answers {a : Agent} (ha : a ≠ .host) (s : State) : ∃ t, s.agentStep a = .next t := by
  cases a with
  | host => exact absurd rfl ha
  | ctrl =>
    obtain ⟨done, todo, c, h⟩ := s.ctrlStep_next
    exact ⟨_, h⟩
  | _ => exact ⟨_, rfl⟩

/-- A step answers, or HOST's list is headed by an illegal descriptor at a free port. -/
theorem step_answers_or_refuses (s : State) : (∃ t, step s = .next t) ∨
    ∃ d ds, s.host = .queue (d :: ds) ∧ s.seqOp = .none ∧ ¬ Descriptor.WellFormed d ∧
      step s = .refused (.illegalOp d) := by
  by_cases ha : s.nextAgent = .host
  · have hstep : step s = s.consumeChoice.hostStep := by simp only [step, State.oneStep, ha, State.agentStep]
    rw [hstep]
    have hturn := s.consumeChoice.hostStep_answers_or_refuses
    rw [State.consumeChoice_eq] at hturn ⊢
    exact hturn
  · exact .inl (State.agentStep_answers ha _)

/-- Settles O10: an instruction answers whether it comes by the port or by the link, and a step that does not answer
is a turn of HOST with an illegal descriptor. -/
theorem onlyIllegalDescriptorsAreRefused : Obligations.OnlyIllegalDescriptorsAreRefused := by
  refine ⟨exec_answers, fun s => ?_⟩
  obtain ⟨t, ht⟩ | ⟨d, ds, hhost, hidle, hd, hstep⟩ := step_answers_or_refuses s
  · simp [ht]
  · refine ⟨by simp [hstep], fun r hr => ⟨d, ds, hhost, hidle, ?_, hd⟩⟩
    exact (Host.Outcome.refused.inj (hstep.symm.trans hr)).symm

end Sys2Proof.Machine
end

section
/-! PROOFS. What a ready controller makes of the frames of WINDOW (41_display_driver.md rule R152,
46_controller_double.md rules R262 to R264). -/

namespace Sys2Proof.Machine

variable {cfg : Cfg} {c : Ctrl}

@[simp] theorem Ctrl.consumeAll_nil : c.consumeAll cfg [] = c := rfl

@[simp] theorem Ctrl.consumeAll_cons (e : LinkEvent) (es : List LinkEvent) :
    c.consumeAll cfg (e :: es) = (c.consume cfg e).consumeAll cfg es := rfl

@[simp] theorem Ctrl.consumeAll_append (es fs : List LinkEvent) :
    c.consumeAll cfg (es ++ fs) = (c.consumeAll cfg es).consumeAll cfg fs := List.foldl_append

theorem Ctrl.ready_iff : c.ready cfg = true ↔ c.k = (expected cfg).length := by simp [Ctrl.ready]

/-- A ready controller compares nothing any more (rule R270). -/
theorem Ctrl.track_of_ready (h : c.ready cfg = true) (e : LinkEvent) : c.track cfg e = c := by
  simp [Ctrl.track, Ctrl.ready_iff.1 h]

theorem Ctrl.consume_command_of_ready (hdistinct : cfg.CommandsDistinct) (h : c.ready cfg = true) (sym : LinkCmd) :
    c.consume cfg (.frame 0#1 (cfg.cmdByte sym)) = c.command sym := by
  simp [Ctrl.consume, Cfg.symbolOf_cmdByte hdistinct, Ctrl.track_of_ready h]

theorem Ctrl.consume_data_of_ready (h : c.ready cfg = true) (b : Byte) :
    c.consume cfg (.frame 1#1 b) = c.data cfg b := by
  simp [Ctrl.consume, Ctrl.track_of_ready h]

/-- The two bytes of a coordinate make the coordinate (rules R63, R264). -/
theorem windowLow_windowHigh (v : Half) : windowLow (windowHigh (hiByte v)) (loByte v) = some v := by
  simp [windowLow, windowHigh, hiByte_joinBytes, joinBytes_hiByte_loByte]

theorem Ctrl.pixel_k (c : Ctrl) (v : Half) : (c.pixel cfg v).k = c.k := by
  unfold Ctrl.pixel
  split
  · rw [Ctrl.memWrite_eq]
  · rfl
  · rfl

/-- A data frame does not move the place in E: the comparison before it does (rules R263, R270). -/
theorem Ctrl.data_k (c : Ctrl) (b : Byte) : (c.data cfg b).k = c.k := by
  by_cases hcmd : c.cmd = some .ramwr
  · simp only [Ctrl.data, Ctrl.dataEffect, hcmd, Ctrl.ramwrData]
    split
    · rfl
    · exact Ctrl.pixel_k _ _
  · exact (Ctrl.dataEffect_of_not_ramwr hcmd b).1

/-- Nor does a command frame (rules R262, R270). -/
theorem Ctrl.command_k (c : Ctrl) (sym : LinkCmd) : (c.command sym).k = c.k := by
  by_cases hsym : sym = .ramwr
  · subst hsym
    obtain ⟨_, _, _, _, -, -, -, -, -, -, e⟩ | e := (c.beginCommand .ramwr).openCursor_cases <;>
      exact (congrArg Ctrl.k e).trans rfl
  · rw [Ctrl.command_eq hsym]
    rfl

@[simp] theorem Ctrl.data_ready (c : Ctrl) (b : Byte) : (c.data cfg b).ready cfg = c.ready cfg := by
  simp [Ctrl.ready, Ctrl.data_k]

@[simp] theorem Ctrl.command_ready (c : Ctrl) (sym : LinkCmd) : (c.command sym).ready cfg = c.ready cfg := by
  simp [Ctrl.ready, Ctrl.command_k]

/-- A 16-bit value comes as two data frames, high byte first (rules R63, R64). -/
theorem Ctrl.consumeAll_halfFrames_of_ready (h : c.ready cfg = true) (v : Half) :
    c.consumeAll cfg ((halfFrames v).map Micro.event) = (c.data cfg (hiByte v)).data cfg (loByte v) := by
  simp [halfFrames, Micro.event, Ctrl.consume_data_of_ready, h]

/-- A command frame with two 16-bit parameters. -/
theorem Ctrl.consumeAll_command_halfFrames_of_ready (hdistinct : cfg.CommandsDistinct) (h : c.ready cfg = true)
    (sym : LinkCmd) (u v : Half) :
    c.consumeAll cfg ((.sendf 0#1 (cfg.cmdByte sym) :: (halfFrames u ++ halfFrames v)).map Micro.event) =
      ((((c.command sym).data cfg (hiByte u)).data cfg (loByte u)).data cfg (hiByte v)).data cfg (loByte v) := by
  simp [Micro.event, Ctrl.consume_command_of_ready hdistinct h, Ctrl.consumeAll_halfFrames_of_ready, h]

/-! The two data frames of each coordinate of the window (rule R264). -/

theorem Ctrl.data_xs (hcmd : c.cmd = some .caset) (hp : c.pidx = 0) (v : Half) :
    (c.data cfg (hiByte v)).data cfg (loByte v) = { c with xs := some v, pidx := 2 } := by
  simp [Ctrl.data, Ctrl.dataEffect, hcmd, Ctrl.casetData, hp, windowLow_windowHigh]

theorem Ctrl.data_xe (hcmd : c.cmd = some .caset) (hp : c.pidx = 2) (v : Half) :
    (c.data cfg (hiByte v)).data cfg (loByte v) = { c with xe := some v, pidx := 4 } := by
  simp [Ctrl.data, Ctrl.dataEffect, hcmd, Ctrl.casetData, hp, windowLow_windowHigh]

theorem Ctrl.data_ys (hcmd : c.cmd = some .raset) (hp : c.pidx = 0) (v : Half) :
    (c.data cfg (hiByte v)).data cfg (loByte v) = { c with ys := some v, pidx := 2 } := by
  simp [Ctrl.data, Ctrl.dataEffect, hcmd, Ctrl.rasetData, hp, windowLow_windowHigh]

theorem Ctrl.data_ye (hcmd : c.cmd = some .raset) (hp : c.pidx = 2) (v : Half) :
    (c.data cfg (hiByte v)).data cfg (loByte v) = { c with ye := some v, pidx := 4 } := by
  simp [Ctrl.data, Ctrl.dataEffect, hcmd, Ctrl.rasetData, hp, windowLow_windowHigh]

/-- CASET and its parameters set the x-range of a ready controller. -/
theorem Ctrl.consumeAll_caset_of_ready (hdistinct : cfg.CommandsDistinct) (h : c.ready cfg = true) (xs xe : Half) :
    c.consumeAll cfg ((.sendf 0#1 (cfg.cmdByte .caset) :: (halfFrames xs ++ halfFrames xe)).map Micro.event) =
      { c with half := none, cmd := some .caset, pidx := 4, xs := some xs, xe := some xe } := by
  rw [Ctrl.consumeAll_command_halfFrames_of_ready hdistinct h,
    Ctrl.data_xs (c := c.command .caset) rfl rfl, Ctrl.data_xe rfl rfl]
  rfl

/-- RASET and its parameters set the y-range of a ready controller. -/
theorem Ctrl.consumeAll_raset_of_ready (hdistinct : cfg.CommandsDistinct) (h : c.ready cfg = true) (ys ye : Half) :
    c.consumeAll cfg ((.sendf 0#1 (cfg.cmdByte .raset) :: (halfFrames ys ++ halfFrames ye)).map Micro.event) =
      { c with half := none, cmd := some .raset, pidx := 4, ys := some ys, ye := some ye } := by
  rw [Ctrl.consumeAll_command_halfFrames_of_ready hdistinct h,
    Ctrl.data_ys (c := c.command .raset) rfl rfl, Ctrl.data_ye rfl rfl]
  rfl

/-- A ready controller after WINDOW: the window is the one sent, RASET is current with its parameters read, the half
pixel is dropped, and the rest is as it was. -/
theorem Ctrl.consumeAll_windowList_of_ready (hdistinct : cfg.CommandsDistinct) (h : c.ready cfg = true)
    (xs xe ys ye : Half) : c.consumeAll cfg ((windowList cfg xs xe ys ye).map Micro.event) =
      { c with
        half := none, cmd := some .raset, pidx := 4, xs := some xs, xe := some xe, ys := some ys, ye := some ye } := by
  have hparts : windowList cfg xs xe ys ye =
      (.sendf 0#1 (cfg.cmdByte .caset) :: (halfFrames xs ++ halfFrames xe)) ++
        (.sendf 0#1 (cfg.cmdByte .raset) :: (halfFrames ys ++ halfFrames ye)) := rfl
  rw [hparts, List.map_append, Ctrl.consumeAll_append, Ctrl.consumeAll_caset_of_ready hdistinct h]
  exact Ctrl.consumeAll_raset_of_ready (c := { c with half := none, cmd := some .caset, pidx := 4, xs := _, xe := _ })
    hdistinct h ys ye

/-- Settles O51: the window is the one sent, and frame memory, the marks and the place in E are not among what
WINDOW moves. -/
theorem windowTraceSetsWindow : Obligations.WindowTraceSetsWindow := by
  intro cfg c xs xe ys ye hdistinct h
  rw [Ctrl.consumeAll_windowList_of_ready hdistinct h]
  exact ⟨rfl, rfl, rfl, rfl, rfl, ⟨rfl, rfl, rfl⟩, h⟩

end Sys2Proof.Machine
end

section
/-! PROOFS. What a turn of an agent leaves alone of the transmit unit and of the operation in progress (10_state.md
rule R33, 40_serial_channel.md rules R131 to R133). -/

namespace Sys2Proof.Machine

variable {s t : State} {a : Agent}

namespace StatePart

/-- `t` has this part of `s`. -/
def Same (p : StatePart) (s t : State) : Prop := p.take t s = t

/-- The transmit unit. -/
def txUnit : StatePart :=
  ⟨fun t s => { t with txbuf := s.txbuf, dc := s.dc, txbusy := s.txbusy }, fun _ => rfl⟩

/-- The operation in progress: SEQ with its operands and its configuration, RES, and the host that waits at the
port. -/
def operation : StatePart where
  take t s :=
    { t with
      cfg := s.cfg, seqOp := s.seqOp, seqPc := s.seqPc, opx := s.opx, opy := s.opy, opv := s.opv, opm := s.opm,
      res := s.res, host := s.host }
  take_self _ := rfl

/-- What goes on beside the display side: the counters, the buttons, and the controller as it reads LINK. -/
def surroundings : StatePart where
  take t s :=
    { t with
      cnt := s.cnt, count := s.count, pin := s.pin, db := s.db, flag := s.flag, linkDone := s.linkDone,
      linkTodo := s.linkTodo, ctrl := s.ctrl }
  take_self _ := rfl

theorem Confines.surroundings_of_button {u : State → State} {i : Button} (hu : (button i).Confines u) (h : u s = t) :
    t = surroundings.take s t := by
  have e := hu.eq_take s
  rw [h] at e
  rw [e]
  rfl

end StatePart

open StatePart

/-- A turn of any agent but HOST, SEQ and TX writes only beside the display side. -/
theorem State.agentStep_surroundings (hhost : a ≠ .host) (hseq : a ≠ .seq) (htx : a ≠ .tx)
    (h : s.agentStep a = .next t) : t = surroundings.take s t := by
  cases a with
  | host => exact absurd rfl hhost
  | seq => exact absurd rfl hseq
  | tx => exact absurd rfl htx
  | clk => cases h; rfl
  | tick => cases h; rfl
  | db i => exact (dbStep_confined i).surroundings_of_button (Host.Outcome.next.inj h)
  | pinFall i => exact (pinFallStep_confined i).surroundings_of_button (Host.Outcome.next.inj h)
  | pinRise i => exact (pinRiseStep_confined i).surroundings_of_button (Host.Outcome.next.inj h)
  | ctrl =>
    obtain ⟨done, todo, c, e⟩ := s.ctrlStep_next
    cases e.symm.trans h
    rfl

/-- HOST does not touch the transmit unit, whether it issues an operation or not. -/
theorem State.txUnit_hostStep (h : s.hostStep = .next t) : txUnit.Same s t := by
  obtain ⟨g, n, -, rfl⟩ | ⟨-, g, n, d, i, hd, he⟩ := State.hostStep_cases h
  · rfl
  · obtain ⟨-, rfl⟩ | ⟨-, heffect⟩ := exec_decoded_cases hd he
    · rfl
    · rw [heffect.eq_update]
      rfl

/-- Only SEQ and TX write the transmit unit, and SEQ does not while a frame is in it. -/
theorem State.txUnit_agentStep (hseq : a = .seq → s.txbusy = 1#1) (htx : a ≠ .tx) (h : s.agentStep a = .next t) :
    txUnit.Same s t := by
  by_cases hs : a = .seq
  · subst hs
    rw [State.agentStep, State.seqStep_of_txBusy (hseq rfl)] at h
    cases h
    rfl
  by_cases hh : a = .host
  · subst hh
    exact State.txUnit_hostStep h
  · rw [State.agentStep_surroundings hh hs htx h]
    rfl

/-- Only SEQ moves an operation in progress, and SEQ does not while a frame is in the transmit unit. HOST waits for
its completion. -/
theorem State.operation_agentStep (hop : s.seqOp ≠ .none) (hseq : a = .seq → s.txbusy = 1#1)
    (h : s.agentStep a = .next t) : operation.Same s t := by
  by_cases hs : a = .seq
  · subst hs
    rw [State.agentStep, State.seqStep_of_txBusy (hseq rfl)] at h
    cases h
    rfl
  by_cases hh : a = .host
  · subst hh
    rw [State.agentStep, State.hostStep_of_portClosed hop] at h
    cases h
    rfl
  by_cases ht : a = .tx
  · subst ht
    cases h
    obtain ⟨-, e⟩ | ⟨-, e⟩ := s.txStep_cases <;> rw [e] <;> rfl
  · rw [State.agentStep_surroundings hh hs ht h]
    rfl

/-- A step is a turn of the next agent once the scheduling choice is used up. -/
theorem step_eq_agentStep (s : State) : ∃ l n,
    step s = ({ s with sched := l, draws := n } : State).agentStep s.nextAgent :=
  ⟨s.consumeChoice.sched, s.consumeChoice.draws, by rw [← State.consumeChoice_eq]; rfl⟩

/-- The transmit unit in a step of an agent other than TX (10_state.md rule R33). -/
theorem State.txUnit_step (hseq : s.nextAgent = .seq → s.txbusy = 1#1) (htx : s.nextAgent ≠ .tx)
    (h : step s = .next t) : t.txbuf = s.txbuf ∧ t.dc = s.dc ∧ t.txbusy = s.txbusy := by
  obtain ⟨l, n, e⟩ := step_eq_agentStep s
  have hsame : txUnit.Same s t :=
    State.txUnit_agentStep (s := { s with sched := l, draws := n }) hseq htx (e.symm.trans h)
  exact ⟨(congrArg State.txbuf hsame).symm, (congrArg State.dc hsame).symm, (congrArg State.txbusy hsame).symm⟩

/-- The operation in progress in a step that does not move it. -/
theorem State.operation_step (hop : s.seqOp ≠ .none) (hseq : s.nextAgent = .seq → s.txbusy = 1#1)
    (h : step s = .next t) :
    t.seqOp = s.seqOp ∧ t.seqPc = s.seqPc ∧ t.ucode = s.ucode ∧ t.res = s.res ∧ t.host = s.host := by
  obtain ⟨l, n, e⟩ := step_eq_agentStep s
  have hsame : operation.Same s t :=
    State.operation_agentStep (s := { s with sched := l, draws := n }) hop hseq (e.symm.trans h)
  exact ⟨(congrArg State.seqOp hsame).symm, (congrArg State.seqPc hsame).symm, (congrArg State.ucode hsame).symm,
    (congrArg State.res hsame).symm, (congrArg State.host hsame).symm⟩

/-- A turn of TX with a frame in flight (40_serial_channel.md rule R132). -/
theorem State.txStep_of_txBusy (h : s.txbusy = 1#1) : s.txStep = s.finishTx := by
  obtain ⟨-, e⟩ | ⟨hfree, -⟩ := s.txStep_cases
  · exact e
  · simp [hfree] at h

/-- A turn of SEQ at a free transmit unit performs the micro-event at SEQ.pc and moves on (rules R131, R27). -/
theorem State.seqStep_of_micro {m : Micro} (hfree : s.txbusy = 0#1) (hm : s.ucode[s.seqPc]? = some m) :
    s.seqStep = (s.perform m).advanceSeq s.ucode.length := by
  simp [State.seqStep, State.nextMicro_eq_some.2 ⟨hfree, hm⟩]

/-- Settles O16: a turn of SEQ performs the send step, and moves on or completes. -/
theorem sendStepLoadsTransmitRegister : Obligations.SendStepLoadsTransmitRegister := by
  intro s rest dc b hsched hm hfree
  let u : State := { s with sched := rest }
  have hstep : step s = .next ((u.loadTx dc b).advanceSeq s.ucode.length) :=
    (step_cons hsched).trans (congrArg Host.Outcome.next (State.seqStep_of_micro (s := u) hfree hm))
  refine ⟨fun hlt => hstep.trans ?_, fun hlast => hstep.trans ?_⟩
  · exact congrArg Host.Outcome.next (State.advanceSeq_of_lt hlt)
  · exact congrArg Host.Outcome.next (State.advanceSeq_of_le hlast.ge)

/-- Settles O19: a turn of TX finishes the frame in flight. -/
theorem transmitStepEmitsFrame : Obligations.TransmitStepEmitsFrame := by
  intro s rest hsched hbusy
  exact (step_cons hsched).trans
    (congrArg Host.Outcome.next (State.txStep_of_txBusy (s := { s with sched := rest }) hbusy))

/-- A step of TX with a frame in flight. -/
theorem State.step_of_tx (ha : s.nextAgent = .tx) (hbusy : s.txbusy = 1#1) (h : step s = .next t) :
    ∃ l n, t = ({ s with sched := l, draws := n } : State).finishTx := by
  obtain ⟨l, n, e⟩ := step_eq_agentStep s
  rw [ha] at e
  have hturn := State.txStep_of_txBusy (s := { s with sched := l, draws := n }) hbusy
  exact ⟨l, n, (Host.Outcome.next.inj (e.symm.trans h)).symm.trans hturn⟩

/-- Settles O30: a step of TX emits the frame in flight, and no other step writes the transmit unit. -/
theorem frameInFlightIsStable : Obligations.FrameInFlightIsStable := by
  intro s t hbusy h
  by_cases ha : s.nextAgent = .tx
  · obtain ⟨l, n, rfl⟩ := State.step_of_tx ha hbusy h
    exact ⟨rfl, rfl, fun _ => ⟨rfl, rfl⟩⟩
  · obtain ⟨hbuf, hdc, hsame⟩ := State.txUnit_step (fun _ => hbusy) ha h
    refine ⟨hdc, hbuf, fun hfree => ?_⟩
    simp [hbusy, hfree] at hsame

/-- What is sent but for the frame in flight is LINK. -/
theorem State.link_congr (hsent : t.sent = s.sent) (hbuf : t.txbuf = s.txbuf) (hdc : t.dc = s.dc)
    (hbusy : t.txbusy = s.txbusy) : t.link = s.link := by
  have hflight : t.inFlight = s.inFlight := by simp [State.inFlight, State.txFree, hbuf, hdc, hbusy]
  rw [State.sent, State.sent, hflight] at hsent
  exact List.append_cancel_right hsent

/-- Settles O33: while SEQ waits, a step of another agent than TX leaves the operation, the transmit unit and what
has been sent (O31) as they were. -/
theorem noProgressWithoutTransmit : Obligations.NoProgressWithoutTransmit := by
  intro s t ⟨hop, hbusy⟩ htx h
  obtain ⟨hseqOp, hseqPc, -, hres, hhost⟩ := State.operation_step hop (fun _ => hbusy) h
  obtain ⟨hbuf, hdc, hsame⟩ := State.txUnit_step (fun _ => hbusy) htx h
  have hsent : t.sent = s.sent := by
    obtain hsent | ⟨-, hfree, -⟩ := sentGrowsByMicroEvents s t h
    · exact hsent
    · simp [hbusy] at hfree
  exact ⟨⟨hseqOp ▸ hop, hsame.trans hbusy⟩, hseqOp, hseqPc, hres, State.link_congr hsent hbuf hdc hsame, hhost⟩

end Sys2Proof.Machine
end

section
/-! PROOFS. With a transmit unit that keeps stepping every operation completes (40_serial_channel.md rules R133,
R135): the micro-events left to SEQ become fewer by one at each of its turns. -/

namespace Sys2Proof.Machine

variable {s t : State} {m : Micro} {l : List Micro}

/-- The micro-events still to be performed of the operation in progress. -/
def State.todo (s : State) : List Micro := s.ucode.drop s.seqPc

/-- SEQ is inside its list, or idle, with exactly the micro-events `l` left. -/
def State.HasLeft (s : State) (l : List Micro) : Prop := s.SeqInv ∧ s.todo = l

theorem State.HasLeft.idle (h : s.HasLeft []) : s.seqOp = .none ∧ s.seqPc = 0 := by
  obtain ⟨⟨hidle, hinside⟩, htodo⟩ := h
  have hop : s.seqOp = .none := by
    by_contra hop
    exact absurd (hinside hop) (List.drop_eq_nil_iff.1 htodo).not_gt
  exact ⟨hop, hidle hop⟩

theorem State.HasLeft.micro (h : s.HasLeft (m :: l)) : s.ucode[s.seqPc]? = some m := by
  rw [← List.head?_drop, ← State.todo, h.2, List.head?_cons]

theorem State.HasLeft.inProgress (h : s.HasLeft (m :: l)) : s.seqOp ≠ .none := State.seqOp_ne_none h.micro

theorem State.HasLeft.rest (h : s.HasLeft (m :: l)) : s.ucode.drop (s.seqPc + 1) = l := by
  rw [← List.tail_drop, ← State.todo, h.2, List.tail_cons]

/-- What is left depends on SEQ's position and its list. -/
theorem State.HasLeft.congr (h : s.HasLeft l) (hop : t.seqOp = s.seqOp) (hpc : t.seqPc = s.seqPc)
    (hucode : t.ucode = s.ucode) : t.HasLeft l := by
  simpa only [State.HasLeft, State.SeqInv, State.todo, hop, hpc, hucode] using h

/-- A turn of SEQ at a free transmit unit leaves one micro-event less. -/
theorem State.HasLeft.seqStep (h : s.HasLeft (m :: l)) (hfree : s.txbusy = 0#1) : s.seqStep.HasLeft l := by
  rw [State.seqStep_of_micro hfree h.micro]
  have hop : (s.perform m).seqOp ≠ .none := by simpa using h.inProgress
  have hrest : (s.perform m).ucode.drop ((s.perform m).seqPc + 1) = l := by simpa using h.rest
  rw [← State.perform_ucode s m]
  obtain ⟨hlt, e⟩ | ⟨hle, e⟩ := (s.perform m).advanceSeq_cases (s.perform m).ucode.length <;> rw [e]
  · exact ⟨⟨fun hidle => absurd hidle hop, fun _ => hlt⟩, hrest⟩
  · exact ⟨⟨fun _ => rfl, fun hop' => absurd rfl hop'⟩, (List.drop_eq_nil_iff.2 hle).symm.trans hrest⟩

theorem State.sent_seqStep_of_hasLeft (h : s.HasLeft (m :: l)) (hfree : s.txbusy = 0#1) :
    s.seqStep.sent = s.sent ++ [m.event] := by
  rw [State.seqStep_of_micro hfree h.micro, State.sent_advanceSeq, State.sent_perform hfree]

/-- An operation completes with RES = 0 (10_state.md rule R26). -/
theorem State.res_of_completes (hop : s.seqOp ≠ .none) (hdone : s.seqStep.seqOp = .none) : s.seqStep.res = 0#32 := by
  obtain ⟨m, -, -, e⟩ | ⟨-, e⟩ := s.seqStep_cases
  · obtain ⟨-, hadv⟩ | ⟨-, hadv⟩ := (s.perform m).advanceSeq_cases s.ucode.length
    · simp [e, hadv, hop] at hdone
    · rw [e, hadv]
  · exact absurd (e ▸ hdone) hop

/-! TX and SEQ in alternation. -/

@[simp] theorem State.txStep_txbusy (s : State) : s.txStep.txbusy = 0#1 := by
  obtain ⟨-, e⟩ | ⟨hfree, e⟩ := s.txStep_cases
  · rw [e]
    rfl
  · rw [e, hfree]

/-- TX leaves SEQ where it is. -/
theorem State.HasLeft.txStep (h : s.HasLeft l) : s.txStep.HasLeft l := by
  obtain ⟨-, e⟩ | ⟨-, e⟩ := s.txStep_cases <;> rw [e] <;> exact h

/-- A turn of TX and a turn of SEQ. -/
def State.txSeq (s : State) : State := s.txStep.seqStep

theorem State.HasLeft.txSeq (h : s.HasLeft (m :: l)) : s.txSeq.HasLeft l := h.txStep.seqStep s.txStep_txbusy

theorem State.sent_txSeq (h : s.HasLeft (m :: l)) : s.txSeq.sent = s.sent ++ [m.event] := by
  rw [State.txSeq, State.sent_seqStep_of_hasLeft h.txStep s.txStep_txbusy, State.sent_txStep]

theorem State.res_txSeq (h : s.HasLeft [m]) : s.txSeq.res = 0#32 :=
  State.res_of_completes h.txStep.inProgress h.txSeq.idle.1

/-- TX and SEQ move only the display side. -/
theorem txSeq_confined : StatePart.display.Confines State.txSeq :=
  StatePart.txStep_confined.comp StatePart.seqStep_confined

theorem StatePart.Confines.iterate {p : StatePart} {u : State → State} (hu : p.Confines u) :
    ∀ n, p.Confines u^[n]
  | 0 => fun _ _ => rfl
  | n + 1 => hu.comp (hu.iterate n)

theorem State.HasLeft.iterate_txSeq (h : s.HasLeft l) : (State.txSeq^[l.length] s).HasLeft [] ∧
    (State.txSeq^[l.length] s).sent = s.sent ++ l.map Micro.event := by
  induction l generalizing s with
  | nil => exact ⟨h, (List.append_nil _).symm⟩
  | cons m l ih =>
    obtain ⟨hleft, hsent⟩ := ih h.txSeq
    refine ⟨hleft, hsent.trans ?_⟩
    rw [State.sent_txSeq h, List.append_assoc]
    rfl

theorem State.HasLeft.res_iterate_txSeq (h : s.HasLeft (m :: l)) :
    (State.txSeq^[l.length + 1] s).res = 0#32 := by
  induction l generalizing s m with
  | nil => exact State.res_txSeq h
  | cons e l ih => exact ih h.txSeq

/-- The state with another schedule. -/
def State.withSched (s : State) (as : List Agent) : State := { s with sched := as }

/-- A step confined to the display side does not look at the schedule. -/
theorem StatePart.Confines.withSched {u : State → State} (hu : StatePart.display.Confines u) (s : State)
    (as : List Agent) : u (s.withSched as) = (u s).withSched as :=
  (hu (s.withSched as) s).trans (congrArg (State.withSched · as) (hu.eq_take s).symm)

theorem run_of_step (h : step s = .next t) (k : Nat) : Sys2Proof.core.run (k + 1) s = Sys2Proof.core.run k t := by
  have hstep : Sys2Proof.core.step s = .next t := h
  simp [Host.Core.run, hstep]

/-- TX and SEQ scheduled `n` times in alternation. -/
def alternation (n : Nat) : List Agent := (List.replicate n [Agent.tx, Agent.seq]).flatten

theorem run_alternation (n : Nat) (s : State) :
    Sys2Proof.core.run (2 * n) (s.withSched (alternation n)) = .next ((State.txSeq^[n] s).withSched []) := by
  induction n generalizing s with
  | zero => rfl
  | succ n ih =>
    have htx : step (s.withSched (alternation (n + 1))) = .next (s.txStep.withSched (.seq :: alternation n)) :=
      (step_cons (s := s.withSched _) rfl).trans
        (congrArg Host.Outcome.next (StatePart.txStep_confined.withSched s (.seq :: alternation n)))
    have hseq : step (s.txStep.withSched (.seq :: alternation n)) = .next (s.txSeq.withSched (alternation n)) :=
      (step_cons (s := s.txStep.withSched _) rfl).trans
        (congrArg Host.Outcome.next (StatePart.seqStep_confined.withSched s.txStep (alternation n)))
    exact (run_of_step htx _).trans ((run_of_step hseq _).trans (ih s.txSeq))

/-! Any schedule that is fair to TX and to SEQ. -/

/-- The rule of weak fairness: if every step from `P` keeps `P` or reaches `Q`, and a step of the fair agent, which
`P` enables, reaches `Q`, then `P` leads to `Q`. -/
theorem WeaklyFair.leadsTo {a : Agent} {enabled P Q : State → Prop} {r : Nat → State} (hfair : WeaklyFair a enabled r)
    (hrun : IsRun r) (henabled : ∀ s, P s → enabled s)
    (hstep : ∀ s t, P s → step s = .next t → s.nextAgent ≠ a ∧ P t ∨ Q t) {n : Nat} (hn : P (r n)) :
    ∃ m, n ≤ m ∧ Q (r m) := by
  by_contra! hnever
  have hkeep (m : Nat) (hm : n ≤ m) (h : P (r m)) : (r m).nextAgent ≠ a ∧ P (r (m + 1)) :=
    (hstep _ _ h (hrun m)).resolve_right (hnever (m + 1) (by omega))
  have hP : ∀ m, n ≤ m → P (r m) := Nat.le_induction hn fun m hm h => (hkeep m hm h).2
  obtain ⟨m, hm, ha⟩ := hfair n fun m hm => henabled _ (hP m hm)
  exact (hkeep m hm (hP m hm)).1 ha

/-- A step with a frame in flight is a step of TX, which frees the transmit unit, or leaves it busy. -/
theorem State.txbusy_step (hbusy : s.txbusy = 1#1) (h : step s = .next t) :
    s.nextAgent ≠ .tx ∧ t.txbusy = 1#1 ∨ t.txbusy = 0#1 := by
  by_cases ha : s.nextAgent = .tx
  · obtain ⟨l, n, rfl⟩ := State.step_of_tx ha hbusy h
    exact .inr rfl
  · obtain ⟨-, -, hsame⟩ := State.txUnit_step (fun _ => hbusy) ha h
    exact .inl ⟨ha, hsame.trans hbusy⟩

/-- A step that is not of SEQ, or finds a frame in flight, leaves SEQ what it has left. -/
theorem State.HasLeft.step_keeps (h : s.HasLeft (m :: l)) (hseq : s.nextAgent = .seq → s.txbusy = 1#1)
    (hstep : step s = .next t) : t.HasLeft (m :: l) := by
  obtain ⟨hop, hpc, hucode, -⟩ := State.operation_step h.inProgress hseq hstep
  exact h.congr hop hpc hucode

/-- A step at a free transmit unit is a step of SEQ, which leaves one micro-event less, or leaves both the unit and
SEQ as they are. -/
theorem State.HasLeft.step_of_txFree (h : s.HasLeft (m :: l)) (hfree : s.txbusy = 0#1) (hstep : step s = .next t) :
    s.nextAgent ≠ .seq ∧ t.HasLeft (m :: l) ∧ t.txbusy = 0#1 ∨ t.HasLeft l := by
  obtain ⟨as, n, e⟩ := step_eq_agentStep s
  have hturn := e.symm.trans hstep
  by_cases hseq : s.nextAgent = .seq
  · rw [hseq] at hturn
    cases hturn
    exact .inr (State.HasLeft.seqStep (s := { s with sched := as, draws := n }) h hfree)
  · refine .inl ⟨hseq, h.step_keeps (absurd · hseq) hstep, ?_⟩
    by_cases htx : s.nextAgent = .tx
    · rw [htx] at hturn
      cases hturn
      exact State.txStep_txbusy _
    · exact (State.txUnit_step (absurd · hseq) htx hstep).2.2.trans hfree

section

variable {r : Nat → State} (hrun : IsRun r) (htx : TxHealthy r)

include hrun htx

theorem txFree_of_healthy {n : Nat} (hbusy : (r n).txbusy = 1#1) : ∃ m, n ≤ m ∧ (r m).txbusy = 0#1 :=
  htx.leadsTo hrun (fun _ h => h) (fun _ _ h hstep => State.txbusy_step h hstep) hbusy

/-- What SEQ has left is still left when the transmit unit gets free. -/
theorem State.HasLeft.leadsTo_txFree {n : Nat} (h : (r n).HasLeft (m :: l)) :
    ∃ k, n ≤ k ∧ (r k).HasLeft (m :: l) ∧ (r k).txbusy = 0#1 := by
  obtain hfree | hbusy := Bit.eq_zero_or_one (r n).txbusy
  · exact ⟨n, le_rfl, h, hfree⟩
  · refine WeaklyFair.leadsTo htx hrun (P := fun s => s.HasLeft (m :: l) ∧ s.txbusy = 1#1)
      (Q := fun s => s.HasLeft (m :: l) ∧ s.txbusy = 0#1) (fun _ h => h.2) ?_ ⟨h, hbusy⟩
    rintro s t ⟨hleft, hbusy⟩ hstep
    have hleft' := hleft.step_keeps (fun _ => hbusy) hstep
    exact (State.txbusy_step hbusy hstep).imp (fun ⟨ha, hb⟩ => ⟨ha, hleft', hb⟩) fun hfree => ⟨hleft', hfree⟩

/-- With SEQ fair too, all that SEQ has left gets performed. -/
theorem State.HasLeft.leadsTo_idle (hseq : SeqFair r) {n : Nat} (h : (r n).HasLeft l) :
    ∃ k, n ≤ k ∧ (r k).HasLeft [] := by
  induction l generalizing n with
  | nil => exact ⟨n, le_rfl, h⟩
  | cons m l ih =>
    obtain ⟨k, hk, hfree⟩ := h.leadsTo_txFree hrun htx
    have henabled (s : State) (hs : s.HasLeft (m :: l) ∧ s.txbusy = 0#1) : s.nextMicro ≠ none := by
      simp [State.nextMicro_eq_some.2 ⟨hs.2, hs.1.micro⟩]
    obtain ⟨k', hk', hless⟩ := WeaklyFair.leadsTo hseq hrun henabled (Q := (State.HasLeft · l))
      (fun s t hs hstep => hs.1.step_of_txFree hs.2 hstep) hfree
    obtain ⟨i, hi, hidle⟩ := ih hless
    exact ⟨i, by omega, hidle⟩

end

/-- Settles O34: TX and SEQ in alternation perform one micro-event more at each turn of SEQ and move only the display
side; and under weak fairness of both, by induction on what SEQ has left. -/
theorem operationCompletesIfTransmitRuns : Obligations.OperationCompletesIfTransmitRuns := by
  refine ⟨fun s hinv hop => ?_, fun r hrun htx => ⟨fun n => txFree_of_healthy hrun htx, fun hseq n hinv _ => ?_⟩⟩
  · have hleft : s.HasLeft s.todo := ⟨hinv, rfl⟩
    have hlength : s.todo.length = s.ucode.length - s.seqPc := List.length_drop
    rw [← hlength]
    obtain ⟨hidle, hsent⟩ := hleft.iterate_txSeq
    refine ⟨_, run_alternation s.todo.length s, hidle.idle.1, hidle.idle.2, ?_, rfl, hsent, ?_⟩
    · cases htodo : s.todo with
      | nil => exact absurd (htodo ▸ hleft).idle.1 hop
      | cons m l => exact (htodo ▸ hleft).res_iterate_txSeq
    · rw [(txSeq_confined.iterate _).eq_take s]
      exact ⟨rfl, rfl, rfl, rfl, rfl⟩
  · obtain ⟨m, hm, hidle⟩ := State.HasLeft.leadsTo_idle hrun htx hseq ⟨hinv, rfl⟩
    exact ⟨m, hm, hidle.idle.1⟩

end Sys2Proof.Machine
end

section
/-! PROOFS. An operation sends exactly its list (41_display_driver.md rule R150): each step of SEQ sends the one
element at SEQ.pc, and no other step sends anything or moves the operation. -/

namespace Sys2Proof.Machine

variable {s t : State} {base : List LinkEvent}

/-- A step that is not of SEQ, or finds a frame in flight, sends nothing. -/
theorem State.sent_step_of_waits (hseq : s.nextAgent = .seq → s.txbusy = 1#1) (h : step s = .next t) :
    t.sent = s.sent := by
  obtain hsent | ⟨ha, hfree, -⟩ := sentGrowsByMicroEvents s t h
  · exact hsent
  · simp [hseq ha] at hfree

/-- After `base` SEQ has sent the events of its list up to SEQ.pc, and no other. -/
def State.HasSent (s : State) (base : List LinkEvent) : Prop :=
  s.sent = base ++ (s.ucode.take s.seqPc).map Micro.event

theorem map_event_take_succ {l : List Micro} {n : Nat} {m : Micro} (h : l[n]? = some m) :
    (l.take (n + 1)).map Micro.event = (l.take n).map Micro.event ++ [m.event] := by
  simp [List.take_add_one, h]

/-- A turn of SEQ at a free transmit unit sends the list up to the next position and stays in the operation, or
completes it with the whole list sent. -/
theorem State.HasSent.seqStep (h : s.HasSent base) (hinv : s.SeqInv) (hop : s.seqOp ≠ .none)
    (hfree : s.txbusy = 0#1) :
    (s.seqStep.seqOp = s.seqOp ∧ s.seqStep.ucode = s.ucode ∧ s.seqStep.HasSent base) ∨
    (s.seqStep.seqOp = .none ∧ s.seqStep.seqPc = 0 ∧ s.seqStep.res = 0#32 ∧
      s.seqStep.sent = base ++ s.ucode.map Micro.event) := by
  obtain ⟨m, hm⟩ : ∃ m, s.ucode[s.seqPc]? = some m := ⟨_, List.getElem?_eq_getElem (hinv.2 hop)⟩
  have hsent : s.seqStep.sent = base ++ (s.ucode.take (s.seqPc + 1)).map Micro.event := by
    rw [State.seqStep_of_micro hfree hm, State.sent_advanceSeq, State.sent_perform hfree, h, map_event_take_succ hm,
      List.append_assoc]
  rw [State.seqStep_of_micro hfree hm] at hsent ⊢
  obtain ⟨-, e⟩ | ⟨hlast, e⟩ := (s.perform m).advanceSeq_cases s.ucode.length
  · have hucode : ((s.perform m).advanceSeq s.ucode.length).ucode = s.ucode := e ▸ s.perform_ucode m
    have hpc : ((s.perform m).advanceSeq s.ucode.length).seqPc = s.seqPc + 1 := by simp [e]
    exact .inl ⟨by simp [e], hucode, by rwa [State.HasSent, hucode, hpc]⟩
  · rw [State.perform_seqPc] at hlast
    rw [List.take_of_length_le hlast] at hsent
    rw [e] at hsent ⊢
    exact .inr ⟨rfl, rfl, rfl, hsent⟩

/-- Settles O32: a turn of SEQ at a free transmit unit sends the next element, and every other step leaves what has
been sent (O31) and the operation as they were. -/
theorem operationSendsExactlyItsList : Obligations.OperationSendsExactlyItsList := by
  intro s t base hinv hop hsent hstep
  by_cases hmoves : s.nextAgent = .seq ∧ s.txbusy = 0#1
  · obtain ⟨ha, hfree⟩ := hmoves
    obtain ⟨l, n, e⟩ := step_eq_agentStep s
    rw [ha, hstep] at e
    cases e
    obtain ⟨hseqOp, hucode, hsent'⟩ | ⟨hidle, hpc, hres, hsent'⟩ :=
      State.HasSent.seqStep (s := { s with sched := l, draws := n }) hsent hinv hop hfree
    · exact ⟨fun _ => ⟨hseqOp, hucode, hsent'⟩, fun hidle => absurd (hseqOp.symm.trans hidle) hop⟩
    · exact ⟨fun hop' => absurd hidle hop', fun _ => ⟨hpc, hres, hsent'⟩⟩
  · have hwaits (ha : s.nextAgent = .seq) : s.txbusy = 1#1 :=
      (Bit.eq_zero_or_one _).resolve_left fun hfree => hmoves ⟨ha, hfree⟩
    obtain ⟨hseqOp, hpc, hucode, -⟩ := State.operation_step hop hwaits hstep
    refine ⟨fun _ => ⟨hseqOp, hucode, ?_⟩, fun hidle => absurd (hseqOp.symm.trans hidle) hop⟩
    rw [State.sent_step_of_waits hwaits hstep, hsent, hucode, hpc]

end Sys2Proof.Machine
end

section
/-! PROOFS. The elements of the display operations' lists (41_display_driver.md rules R150 to R159): the last is a
frame, and CLEAR and SETPIXEL written out byte by byte. -/

namespace Sys2Proof.Machine

variable {s : State} {cfg : Cfg} {l k : List Micro}

/-- The last element is a frame. -/
def EndsInFrame (l : List Micro) : Prop := ∃ k dc b, l = k ++ [.sendf dc b]

theorem endsInFrame_singleton (dc : Bit) (b : Byte) : EndsInFrame [.sendf dc b] := ⟨[], dc, b, rfl⟩

theorem EndsInFrame.append_left (h : EndsInFrame k) (l : List Micro) : EndsInFrame (l ++ k) := by
  obtain ⟨k, dc, b, rfl⟩ := h
  exact ⟨l ++ k, dc, b, (List.append_assoc _ _ _).symm⟩

theorem endsInFrame_halfFrames (v : Half) : EndsInFrame (halfFrames v) :=
  (endsInFrame_singleton 1#1 (loByte v)).append_left [.sendf 1#1 (hiByte v)]

/-- The last pixel ends the fill, or the memory-write command does where the extent has no pixel. -/
theorem endsInFrame_fillList (cfg : Cfg) (c : Half) : EndsInFrame (fillList cfg c) := by
  unfold fillList
  cases cfg.width * cfg.height with
  | zero =>
    rw [List.replicate_zero, List.flatten_nil, List.append_nil]
    exact (endsInFrame_singleton 0#1 cfg.cmdRamwr).append_left _
  | succ n =>
    rw [List.replicate_succ', List.flatten_concat]
    exact ((endsInFrame_halfFrames c).append_left _).append_left _

theorem endsInFrame_ucode {op : SeqOp} (h : op ≠ .none) (x y v : Half) (m : Bit) :
    EndsInFrame (ucode cfg op x y v m) := by
  cases op with
  | none => exact absurd rfl h
  | send => exact endsInFrame_singleton m (loByte v)
  | init => exact (endsInFrame_singleton 0#1 cfg.cmdDispon).append_left _
  | clear => exact endsInFrame_fillList cfg v
  | setPixel => exact (endsInFrame_halfFrames v).append_left _

/-- An element that is no frame has one after it. -/
theorem EndsInFrame.lt_length (h : EndsInFrame l) {n : Nat} {m : Micro} (hm : l[n]? = some m)
    (hframe : ∀ dc b, m ≠ .sendf dc b) : n + 1 < l.length := by
  obtain ⟨k, dc, b, rfl⟩ := h
  obtain ⟨hn, -⟩ := List.getElem?_eq_some_iff.1 hm
  rw [List.length_append, List.length_singleton] at hn ⊢
  by_contra hlast
  obtain rfl : n = k.length := by omega
  exact hframe dc b (by simpa using hm.symm)

/-- A turn of SEQ with a reset-line or dwell step to perform performs it and moves on (rule R151). -/
theorem State.seqStep_of_not_frame {m : Micro} (hfree : s.txbusy = 0#1) (hm : s.ucode[s.seqPc]? = some m)
    (hframe : ∀ dc b, m ≠ .sendf dc b) : s.seqStep = { s.perform m with seqPc := s.seqPc + 1 } := by
  have hlt : (s.perform m).seqPc + 1 < s.ucode.length :=
    (s.perform_seqPc m).symm ▸ (endsInFrame_ucode (State.seqOp_ne_none hm) _ _ _ _).lt_length hm hframe
  rw [State.seqStep_of_micro hfree hm, State.advanceSeq_of_lt hlt, State.perform_seqPc]

/-- Settles O17: none of the three is a frame, so a turn of SEQ performs it and moves on. -/
theorem resetLineAndDwellSteps : Obligations.ResetLineAndDwellSteps := by
  intro s rest hsched hfree
  have hstep (m : Micro) (hm : s.ucode[s.seqPc]? = some m) (hframe : ∀ dc b, m ≠ .sendf dc b) :
      step s = .next { ({ s with sched := rest } : State).perform m with seqPc := s.seqPc + 1 } :=
    (step_cons hsched).trans (congrArg Host.Outcome.next
      (State.seqStep_of_not_frame (s := { s with sched := rest }) hfree hm hframe))
  exact ⟨fun hm => hstep .rsta hm nofun, fun hm => hstep .rstr hm nofun, fun n hm => hstep (.dwell n) hm nofun⟩

/-- `V[15:8]` as a number. -/
theorem hiByte_eq_ofNat (v : Half) : hiByte v = BitVec.ofNat 8 (v.toNat / 256) := by
  apply BitVec.eq_of_toNat_eq
  simp [hiByte, BitVec.extractLsb'_toNat, Nat.shiftRight_eq_div_pow]

theorem addrX_eq_ofNat (x : Half) : addrX x = BitVec.ofNat 16 (x.toNat + 2) := by
  rw [BitVec.ofNat_add, BitVec.ofNat_toNat, BitVec.setWidth_eq]
  rfl

theorem addrY_eq_ofNat (y : Half) : addrY y = BitVec.ofNat 16 (y.toNat + 1) := by
  rw [BitVec.ofNat_add, BitVec.ofNat_toNat, BitVec.setWidth_eq]
  rfl

theorem halfFrames_eq_ofNat (v : Half) : halfFrames v =
    [.sendf 1#1 (BitVec.ofNat 8 (v.toNat / 256)), .sendf 1#1 (BitVec.ofNat 8 (v.toNat % 256))] := by
  rw [halfFrames, hiByte_eq_ofNat, loByte_eq_ofNat]

/-- Settles O23: the building blocks of SETPIXEL one after the other, with the offsets and the bytes as numbers. -/
theorem setPixelListIsThirteenFrames : Obligations.SetPixelListIsThirteenFrames := by
  intro cfg x y v m
  simp only [ucode, windowList, memwrList, pixelList, halfFrames_eq_ofNat, addrX_eq_ofNat, addrY_eq_ofNat]
  rfl

/-- The elements of a list of pairs. -/
theorem getElem?_flatten_replicate_pair {α : Type} (a b : α) {n N : Nat} (h : n < N) :
    (List.replicate N [a, b]).flatten[2 * n]? = some a ∧ (List.replicate N [a, b]).flatten[2 * n + 1]? = some b := by
  induction N generalizing n with
  | zero => omega
  | succ N ih =>
    cases n with
    | zero => exact ⟨rfl, rfl⟩
    | succ n => exact ih (by omega)

/-- The frames of CLEAR before the first pixel: the full window and the memory write (rules R155, R156). -/
def fillHead (cfg : Cfg) : List Micro := fullwinList cfg ++ memwrList cfg

theorem length_fillHead (cfg : Cfg) : (fillHead cfg).length = 11 := rfl

theorem fillHead_eq (cfg : Cfg) : fillHead cfg =
    .sendf 0#1 cfg.cmdCaset :: halfFrames 2#16 ++ halfFrames (BitVec.ofNat 16 (cfg.maxX + 2)) ++
      .sendf 0#1 cfg.cmdRaset :: halfFrames 1#16 ++ halfFrames (BitVec.ofNat 16 (cfg.maxY + 1)) ++
        [.sendf 0#1 cfg.cmdRamwr] := by
  rw [BitVec.ofNat_add, BitVec.ofNat_add]
  rfl

/-- Settles O24: the head is eleven frames long, and behind it stand the pairs of the colour's bytes. -/
theorem fillListIsOneWindowThenPixels : Obligations.FillListIsOneWindowThenPixels := by
  intro cfg x y v m
  have hlist : ucode cfg .clear x y v m =
      fillHead cfg ++ (List.replicate (cfg.width * cfg.height) (pixelList v)).flatten := rfl
  refine ⟨length_fillList cfg v, ?_, fun n hn => ?_⟩
  · rw [hlist, List.take_left' (length_fillHead cfg), fillHead_eq]
    simp only [halfFrames_eq_ofNat]
    rfl
  · rw [hlist, pixelList, halfFrames_eq_ofNat]
    have hpixel := getElem?_flatten_replicate_pair (Micro.sendf 1#1 (BitVec.ofNat 8 (v.toNat / 256)))
      (.sendf 1#1 (BitVec.ofNat 8 (v.toNat % 256))) hn
    have hpast (i : Nat) (k : List Micro) : (fillHead cfg ++ k)[11 + i]? = k[i]? := by
      rw [← length_fillHead cfg, List.getElem?_append_right (Nat.le_add_right _ i), Nat.add_sub_cancel_left]
    exact ⟨(hpast (2 * n) _).trans hpixel.1,
      (congrArg _ (by omega)).trans ((hpast (2 * n + 1) _).trans hpixel.2)⟩

end Sys2Proof.Machine
end

section
/-! PROOFS. What a ready controller makes of the frames of a memory write (46_controller_double.md rules R262, R265 to
R267), and of SETPIXEL, the memory write of one pixel in a window of one cell (41_display_driver.md rules R159,
R161). -/

namespace Sys2Proof.Machine

variable {cfg : Cfg} {c : Ctrl} {v : Half}

/-! Cells and visible pixels (20_memory.md rules R70, R71). -/

/-- A column or row of the extent is that of a visible pixel, and the 16-bit wrap of a coordinate outside does not
lead back into the extent. -/
theorem inExtent_addr_iff (hfits : cfg.ExtentFits) (x y : Half) :
    inExtent cfg (addrX x) (addrY y) = true ↔ cfg.InView x y := by
  obtain ⟨hw, hh, hx, hy, -⟩ := hfits
  have hxlt := x.isLt
  have hylt := y.isLt
  simp only [inExtent, addrX, addrY, Config.xOff, Config.yOff, Cfg.InView, Cfg.maxX, Cfg.maxY, decide_eq_true_iff,
    BitVec.toNat_add, BitVec.toNat_ofNat]
  omega

/-- Distinct pixels have distinct cells. -/
theorem gramKey_addr_eq_iff {x y x' y' : Half} :
    gramKey (addrX x') (addrY y') = gramKey (addrX x) (addrY y) ↔ x' = x ∧ y' = y := by
  constructor
  · intro h
    obtain ⟨hx, hy⟩ := gramKey_injective h
    exact ⟨add_right_cancel hx, add_right_cancel hy⟩
  · rintro ⟨rfl, rfl⟩
    rfl

theorem Gram.visible_write_same (g : Gram) (x y v : Half) :
    Gram.visible (g.write (gramKey (addrX x) (addrY y)) v) x y = some v := Gram.read_write_same _ _ _

theorem Gram.visible_write_other (g : Gram) {x y x' y' : Half} (v : Half) (h : ¬ (x' = x ∧ y' = y)) :
    Gram.visible (g.write (gramKey (addrX x) (addrY y)) v) x' y' = g.visible x' y' :=
  Gram.read_write_other _ _ (mt gramKey_addr_eq_iff.1 h)

/-- Without a mark the double says of a visible pixel what frame memory holds (rule R272). -/
theorem Ctrl.visible_of_noMark (hmark : c.NoMark) {x y : Half} (hview : cfg.InView x y) :
    c.visible cfg x y = c.gram.visible x y := if_pos ⟨hmark, hview⟩

theorem Ctrl.memWrite_of_inExtent {col row : Half} (h : inExtent cfg col row = true) :
    c.memWrite cfg col row v = { c with gram := c.gram.write (gramKey col row) v } := if_pos h

theorem Ctrl.memWrite_of_not_inExtent {col row : Half} (h : ¬ inExtent cfg col row = true) :
    c.memWrite cfg col row v = { c with corrupt := true } := if_neg h

/-! The frames of a memory write (rules R262, R265). -/

/-- A window: the first and the last column and row. -/
structure Window where
  xs : Half
  xe : Half
  ys : Half
  ye : Half

variable {w : Window} {col row : Half}

/-- The controller after WINDOW and the memory-write command: the cursor is at the window's first cell. -/
def Ctrl.openWindow (w : Window) (c : Ctrl) : Ctrl :=
  { c with
    half := none, cmd := some .ramwr, pidx := 0, xs := some w.xs, xe := some w.xe, ys := some w.ys,
    ye := some w.ye, cur := .at w.xs w.ys }

theorem Ctrl.consumeAll_window_memwr_of_ready (hdistinct : cfg.CommandsDistinct) (h : c.ready cfg = true)
    (hx : w.xs.toNat ≤ w.xe.toNat) (hy : w.ys.toNat ≤ w.ye.toNat) :
    c.consumeAll cfg ((windowList cfg w.xs w.xe w.ys w.ye ++ memwrList cfg).map Micro.event) = c.openWindow w := by
  rw [List.map_append, Ctrl.consumeAll_append, Ctrl.consumeAll_windowList_of_ready hdistinct h]
  refine (Ctrl.consume_command_of_ready (c := { c with
    half := none, cmd := _, pidx := _, xs := _, xe := _, ys := _, ye := _ }) hdistinct h .ramwr).trans ?_
  simp [Ctrl.command, Ctrl.beginCommand, Ctrl.openCursor, Ctrl.openWindow, hx, hy]

theorem Ctrl.dataEffect_of_ramwr (hcmd : c.cmd = some .ramwr) (b : Byte) : c.dataEffect cfg b = c.ramwrData cfg b := by
  simp [Ctrl.dataEffect, hcmd]

theorem Ctrl.data_first_pixel_byte (hcmd : c.cmd = some .ramwr) (hhalf : c.half = none) (b : Byte) :
    c.data cfg b = { c with half := some b, pidx := c.pidx + 1 } := by
  rw [Ctrl.data, Ctrl.dataEffect_of_ramwr hcmd, Ctrl.ramwrData, hhalf]

/-- The second byte of a pixel, with the cursor at a cell: a memory write there, and the cursor moves on. -/
theorem Ctrl.data_second_pixel_byte {hi : Byte} (hcmd : c.cmd = some .ramwr) (hhalf : c.half = some hi)
    (hcur : c.cur = .at col row) (b : Byte) : c.data cfg b =
      { c.memWrite cfg col row (joinBytes hi b) with
        half := none, cur := c.nextCursor col row, pidx := c.pidx + 1 } := by
  rw [Ctrl.data, Ctrl.dataEffect_of_ramwr hcmd, Ctrl.ramwrData, hhalf]
  simp only [Ctrl.pixel, hcur]
  unfold Ctrl.memWrite
  split_ifs <;> rfl

/-- The two frames of a pixel. -/
theorem Ctrl.consumeAll_pixelList_of_ready (h : c.ready cfg = true) (hcmd : c.cmd = some .ramwr)
    (hhalf : c.half = none) (hcur : c.cur = .at col row) (v : Half) :
    c.consumeAll cfg ((pixelList v).map Micro.event) =
      { c.memWrite cfg col row v with half := none, cur := c.nextCursor col row, pidx := c.pidx + 2 } := by
  rw [pixelList, Ctrl.consumeAll_halfFrames_of_ready h, Ctrl.data_first_pixel_byte hcmd hhalf,
    Ctrl.data_second_pixel_byte (c := { c with half := some (hiByte v), pidx := c.pidx + 1 }) hcmd rfl hcur,
    joinBytes_hiByte_loByte]
  unfold Ctrl.memWrite
  split_ifs <;> rfl

/-! SETPIXEL: a window of one cell (41_display_driver.md rule R159). -/

/-- The window that SETPIXEL opens. -/
def cellWindow (x y : Half) : Window := ⟨addrX x, addrX x, addrY y, addrY y⟩

/-- A ready controller after SETPIXEL: one memory write at the pixel's cell, and the cursor past the window. -/
theorem Ctrl.consumeAll_setPixel_of_ready (hdistinct : cfg.CommandsDistinct) (h : c.ready cfg = true) (x y v : Half) :
    c.consumeAll cfg ((ucode cfg .setPixel x y v 0#1).map Micro.event) =
      { (c.openWindow (cellWindow x y)).memWrite cfg (addrX x) (addrY y) v with
        half := none, cur := .stop, pidx := 2 } := by
  have hparts : ucode cfg .setPixel x y v 0#1 =
      (windowList cfg (cellWindow x y).xs (cellWindow x y).xe (cellWindow x y).ys (cellWindow x y).ye ++
        memwrList cfg) ++ pixelList v := rfl
  have hnext : (c.openWindow (cellWindow x y)).nextCursor (addrX x) (addrY y) = .stop := by
    simp [Ctrl.nextCursor, Ctrl.openWindow, cellWindow]
  rw [hparts, List.map_append, Ctrl.consumeAll_append,
    Ctrl.consumeAll_window_memwr_of_ready hdistinct h le_rfl le_rfl,
    Ctrl.consumeAll_pixelList_of_ready (c := c.openWindow (cellWindow x y)) (col := addrX x) (row := addrY y) h
      rfl rfl rfl, hnext]
  rfl

theorem Ctrl.consumeAll_setPixel_inView (hdistinct : cfg.CommandsDistinct) (hfits : cfg.ExtentFits)
    (h : c.ready cfg = true) {x y : Half} (hview : cfg.InView x y) (v : Half) :
    c.consumeAll cfg ((ucode cfg .setPixel x y v 0#1).map Micro.event) =
      { c.openWindow (cellWindow x y) with
        half := none, cur := .stop, pidx := 2, gram := c.gram.write (gramKey (addrX x) (addrY y)) v } := by
  rw [Ctrl.consumeAll_setPixel_of_ready hdistinct h,
    Ctrl.memWrite_of_inExtent ((inExtent_addr_iff hfits x y).2 hview)]
  rfl

theorem Ctrl.consumeAll_setPixel_outside (hdistinct : cfg.CommandsDistinct) (hfits : cfg.ExtentFits)
    (h : c.ready cfg = true) {x y : Half} (hview : ¬ cfg.InView x y) (v : Half) :
    c.consumeAll cfg ((ucode cfg .setPixel x y v 0#1).map Micro.event) =
      { c.openWindow (cellWindow x y) with half := none, cur := .stop, pidx := 2, corrupt := true } := by
  rw [Ctrl.consumeAll_setPixel_of_ready hdistinct h,
    Ctrl.memWrite_of_not_inExtent (mt (inExtent_addr_iff hfits x y).1 hview)]

/-- Settles O53: the cell of a pixel outside the extent is outside the full window, so its memory write only marks. -/
theorem setPixelOutsideExtentIsMarked : Obligations.SetPixelOutsideExtentIsMarked := by
  intro cfg c x y v hdistinct hfits h hview
  refine ⟨rfl, ?_⟩
  rw [Ctrl.consumeAll_setPixel_outside hdistinct hfits h hview]
  exact ⟨rfl, rfl, fun _ => rfl, fun _ _ => if_neg (by simp [Ctrl.NoMark])⟩

end Sys2Proof.Machine
end

section
/-! PROOFS. A fill: a memory write of as many pixels as its window has cells gives every cell the colour
(46_controller_double.md rules R265 to R267), and CLEAR is one of the full window (41_display_driver.md rules R156,
R158). -/

namespace Sys2Proof.Machine

variable {cfg : Cfg} {c : Ctrl} {v : Half} {w : Window} {col row : Half}

/-! How far a memory write has come in its window (rule R266). -/

/-- (col, row) is a cell of the window. -/
def Window.Has (w : Window) (col row : Half) : Prop :=
  w.xs.toNat ≤ col.toNat ∧ col.toNat ≤ w.xe.toNat ∧ w.ys.toNat ≤ row.toNat ∧ row.toNat ≤ w.ye.toNat

/-- The controller's window is `w`. -/
def Ctrl.HasWindow (c : Ctrl) (w : Window) : Prop :=
  c.xs = some w.xs ∧ c.xe = some w.xe ∧ c.ys = some w.ys ∧ c.ye = some w.ye

/-- How many cells of the window a cursor has still to write: the rest of its row and the rows below. -/
def Window.cellsLeft (w : Window) : Cursor → Nat
  | .at col row =>
    (w.ye.toNat - row.toNat) * (w.xe.toNat - w.xs.toNat + 1) + (w.xe.toNat - col.toNat + 1)
  | .stop => 0
  | .none => 0

/-- The cursor has passed the cell: a row above its own, or in its row a column before its own. -/
def Cursor.Passed (col row : Half) : Cursor → Prop
  | .at col' row' => row.toNat < row'.toNat ∨ row = row' ∧ col.toNat < col'.toNat
  | .stop => True
  | .none => False

/-- The cursor behind a cell of the window: on in its row, at the start of the next row, or at the end (rule
R266). -/
theorem Ctrl.HasWindow.nextCursor_cases (h : c.HasWindow w) (col row : Half) :
    col.toNat < w.xe.toNat ∧ c.nextCursor col row = .at (col + 1#16) row ∨
    w.xe.toNat ≤ col.toNat ∧ row.toNat < w.ye.toNat ∧ c.nextCursor col row = .at w.xs (row + 1#16) ∨
    w.xe.toNat ≤ col.toNat ∧ w.ye.toNat ≤ row.toNat ∧ c.nextCursor col row = .stop := by
  obtain ⟨hxs, hxe, -, hye⟩ := h
  simp only [Ctrl.nextCursor, hxs, hxe, hye]
  split_ifs with hcol hrow
  · exact .inl ⟨hcol, rfl⟩
  · exact .inr (.inl ⟨not_lt.1 hcol, hrow, rfl⟩)
  · exact .inr (.inr ⟨not_lt.1 hcol, not_lt.1 hrow, rfl⟩)

/-- Each pixel leaves one cell less. -/
theorem Ctrl.HasWindow.cellsLeft_next (h : c.HasWindow w) (hcell : w.Has col row) :
    w.cellsLeft (.at col row) = w.cellsLeft (c.nextCursor col row) + 1 := by
  obtain ⟨-, hcol', -, hrow'⟩ := hcell
  obtain ⟨hcol, e⟩ | ⟨hcol, hrow, e⟩ | ⟨hcol, hrow, e⟩ := h.nextCursor_cases col row
  · have hgrow := toNat_add_one_of_lt hcol
    rw [e]
    simp only [Window.cellsLeft]
    omega
  · have hgrow := toNat_add_one_of_lt hrow
    have hrows : w.ye.toNat - row.toNat = w.ye.toNat - (row + 1#16).toNat + 1 := by omega
    rw [e]
    simp only [Window.cellsLeft, hrows, Nat.succ_mul]
    omega
  · have hrows : w.ye.toNat - row.toNat = 0 := by omega
    rw [e]
    simp only [Window.cellsLeft, hrows, Nat.zero_mul]
    omega

/-- The next cursor is in the window or at its end. -/
theorem Ctrl.HasWindow.has_next (h : c.HasWindow w) (hcell : w.Has col row) :
    c.nextCursor col row = .stop ∨ ∃ col' row', c.nextCursor col row = .at col' row' ∧ w.Has col' row' := by
  obtain ⟨hxs, hxe, hys, hye⟩ := hcell
  obtain ⟨hcol, e⟩ | ⟨-, hrow, e⟩ | ⟨-, -, e⟩ := h.nextCursor_cases col row
  · have hgrow := toNat_add_one_of_lt hcol
    exact .inr ⟨_, _, e, by omega, by omega, hys, hye⟩
  · have hgrow := toNat_add_one_of_lt hrow
    exact .inr ⟨_, _, e, le_rfl, hxs.trans hxe, by omega, by omega⟩
  · exact .inl e

/-- The next cursor has passed its cell and no cell of the window besides. -/
theorem Ctrl.HasWindow.passed_next (h : c.HasWindow w) {col' row' : Half} (hcell : w.Has col' row')
    (hpassed : (c.nextCursor col row).Passed col' row') :
    (Cursor.at col row).Passed col' row' ∨ col' = col ∧ row' = row := by
  obtain ⟨hxs, hxe, hys, hye⟩ := hcell
  simp only [Cursor.Passed, ← BitVec.toNat_inj]
  obtain ⟨hcol, e⟩ | ⟨hcol, hrow, e⟩ | ⟨hcol, hrow, e⟩ := h.nextCursor_cases col row
  · have hgrow := toNat_add_one_of_lt hcol
    simp only [e, Cursor.Passed, ← BitVec.toNat_inj] at hpassed
    omega
  · have hgrow := toNat_add_one_of_lt hrow
    simp only [e, Cursor.Passed, ← BitVec.toNat_inj] at hpassed
    omega
  · omega

/-! The pixels of a fill (rule R156). -/

/-- A memory write with `n` pixels to come: the cursor is at a cell with `n` left, or at the end, and all the cells
it has passed hold the colour. -/
structure Ctrl.Filling (cfg : Cfg) (w : Window) (v : Half) (n : Nat) (c : Ctrl) : Prop where
  ready : c.ready cfg = true
  cmd : c.cmd = some .ramwr
  half : c.half = none
  window : c.HasWindow w
  cursor : c.cur = .stop ∨ ∃ col row, c.cur = .at col row ∧ w.Has col row
  left : w.cellsLeft c.cur = n
  filled : ∀ col row, w.Has col row → c.cur.Passed col row → c.gram.read (gramKey col row) = some v

/-- `d` is `c` but for what the pixels of a memory write move. -/
def Ctrl.SameButPixels (c d : Ctrl) : Prop :=
  d = { c with pidx := d.pidx, cur := d.cur, half := d.half, gram := d.gram }

theorem Ctrl.SameButPixels.trans {d e : Ctrl} (hd : c.SameButPixels d) (he : d.SameButPixels e) :
    c.SameButPixels e := by
  refine Eq.trans he ?_
  rw [hd]

/-- The window has cells left: the cursor is at one. -/
theorem Ctrl.Filling.exists_cell {n : Nat} (h : c.Filling cfg w v (n + 1)) :
    ∃ col row, c.cur = .at col row ∧ w.Has col row := by
  refine h.cursor.resolve_left fun hstop => ?_
  have hleft := h.left
  rw [hstop] at hleft
  exact absurd hleft (Nat.succ_ne_zero n).symm

/-- One pixel of a fill. -/
theorem Ctrl.Filling.pixel {n : Nat} (hin : ∀ col row, w.Has col row → inExtent cfg col row = true)
    (h : c.Filling cfg w v (n + 1)) :
    (c.consumeAll cfg ((pixelList v).map Micro.event)).Filling cfg w v n ∧
      c.SameButPixels (c.consumeAll cfg ((pixelList v).map Micro.event)) := by
  obtain ⟨col, row, hcur, hcell⟩ := h.exists_cell
  rw [Ctrl.consumeAll_pixelList_of_ready h.ready h.cmd h.half hcur, Ctrl.memWrite_of_inExtent (hin col row hcell)]
  refine ⟨⟨h.ready, h.cmd, rfl, h.window, h.window.has_next hcell, ?_, fun col' row' hcell' hpassed => ?_⟩, rfl⟩
  · have hleft := h.left
    rw [hcur, h.window.cellsLeft_next hcell] at hleft
    exact Nat.succ.inj hleft
  · by_cases hsame : gramKey col' row' = gramKey col row
    · rw [hsame]
      exact Gram.read_write_same _ _ _
    · have hbefore : c.cur.Passed col' row' := by
        rw [hcur]
        refine (h.window.passed_next hcell' hpassed).resolve_right ?_
        rintro ⟨rfl, rfl⟩
        exact hsame rfl
      exact (Gram.read_write_other _ _ hsame).trans (h.filled col' row' hcell' hbefore)

/-- As many pixels as there are cells left complete the fill. -/
theorem Ctrl.Filling.consumeAll (hin : ∀ col row, w.Has col row → inExtent cfg col row = true) {n : Nat}
    (h : c.Filling cfg w v n) :
    (c.consumeAll cfg ((List.replicate n (pixelList v)).flatten.map Micro.event)).Filling cfg w v 0 ∧
      c.SameButPixels (c.consumeAll cfg ((List.replicate n (pixelList v)).flatten.map Micro.event)) := by
  induction n generalizing c with
  | zero => exact ⟨h, rfl⟩
  | succ n ih =>
    rw [List.replicate_succ, List.flatten_cons, List.map_append, Ctrl.consumeAll_append]
    obtain ⟨hpixel, hsame⟩ := h.pixel hin
    obtain ⟨hrest, hsame'⟩ := ih hpixel
    exact ⟨hrest, hsame.trans hsame'⟩

/-- A complete fill: every cell of the window holds the colour. -/
theorem Ctrl.Filling.read_eq (h : c.Filling cfg w v 0) (hcell : w.Has col row) :
    c.gram.read (gramKey col row) = some v := by
  refine h.filled col row hcell ?_
  obtain hstop | ⟨col', row', hcur, -⟩ := h.cursor
  · rw [hstop]
    trivial
  · have hleft := h.left
    rw [hcur] at hleft
    exact absurd hleft (Nat.succ_ne_zero _)

theorem Ctrl.openWindow_hasWindow (w : Window) (c : Ctrl) : (c.openWindow w).HasWindow w := ⟨rfl, rfl, rfl, rfl⟩

/-- A memory write that has just opened its window has all its cells left. -/
theorem Ctrl.openWindow_filling (h : c.ready cfg = true) (hx : w.xs.toNat ≤ w.xe.toNat)
    (hy : w.ys.toNat ≤ w.ye.toNat) (v : Half) :
    (c.openWindow w).Filling cfg w v ((w.xe.toNat - w.xs.toNat + 1) * (w.ye.toNat - w.ys.toNat + 1)) where
  ready := h
  cmd := rfl
  half := rfl
  window := c.openWindow_hasWindow w
  cursor := .inr ⟨_, _, rfl, le_rfl, hx, le_rfl, hy⟩
  left := by
    simp only [Ctrl.openWindow, Window.cellsLeft]
    ring
  filled col row hcell hpassed := by
    obtain ⟨hxs, -, hys, -⟩ := hcell
    simp only [Ctrl.openWindow, Cursor.Passed] at hpassed
    omega

/-! CLEAR: the full window (rules R155, R158). -/

/-- The full window of a configuration. -/
def fullWindow (cfg : Cfg) : Window :=
  ⟨Config.xOff, addrX (BitVec.ofNat 16 cfg.maxX), Config.yOff, addrY (BitVec.ofNat 16 cfg.maxY)⟩

theorem fullWindow_xe_toNat (hfits : cfg.ExtentFits) : (fullWindow cfg).xe.toNat = cfg.maxX + 2 := by
  obtain ⟨hw, -, hx, -, -⟩ := hfits
  simp only [fullWindow, addrX, Config.xOff, Cfg.maxX, BitVec.toNat_add, BitVec.toNat_ofNat]
  omega

theorem fullWindow_ye_toNat (hfits : cfg.ExtentFits) : (fullWindow cfg).ye.toNat = cfg.maxY + 1 := by
  obtain ⟨-, hh, -, hy, -⟩ := hfits
  simp only [fullWindow, addrY, Config.yOff, Cfg.maxY, BitVec.toNat_add, BitVec.toNat_ofNat]
  omega

/-- The cells of the full window are those of the extent. -/
theorem fullWindow_has_iff (hfits : cfg.ExtentFits) (col row : Half) :
    (fullWindow cfg).Has col row ↔ inExtent cfg col row = true := by
  rw [Window.Has, fullWindow_xe_toNat hfits, fullWindow_ye_toNat hfits]
  exact decide_eq_true_iff.symm

/-- A ready controller after a fill: every visible pixel has the colour, and only frame memory and the progress of the
memory write have moved since the window was opened. -/
theorem Ctrl.consumeAll_fillList_of_ready (hdistinct : cfg.CommandsDistinct) (hfits : cfg.ExtentFits)
    (h : c.ready cfg = true) (v : Half) :
    (c.openWindow (fullWindow cfg)).SameButPixels (c.consumeAll cfg ((fillList cfg v).map Micro.event)) ∧
      ∀ x y, cfg.InView x y →
        (c.consumeAll cfg ((fillList cfg v).map Micro.event)).gram.visible x y = some v := by
  have hxe := fullWindow_xe_toNat hfits
  have hye := fullWindow_ye_toNat hfits
  have hxs : (fullWindow cfg).xs.toNat = 2 := rfl
  have hys : (fullWindow cfg).ys.toNat = 1 := rfl
  have hx : (fullWindow cfg).xs.toNat ≤ (fullWindow cfg).xe.toNat := by omega
  have hy : (fullWindow cfg).ys.toNat ≤ (fullWindow cfg).ye.toNat := by omega
  have hfilling := Ctrl.openWindow_filling h hx hy v
  have hwidth : cfg.maxX + 2 - 2 + 1 = cfg.width := Nat.sub_add_cancel hfits.1
  have hheight : cfg.maxY + 1 - 1 + 1 = cfg.height := Nat.sub_add_cancel hfits.2.1
  rw [hxe, hye, hxs, hys, hwidth, hheight] at hfilling
  have hparts : fillList cfg v = (windowList cfg (fullWindow cfg).xs (fullWindow cfg).xe (fullWindow cfg).ys
    (fullWindow cfg).ye ++ memwrList cfg) ++ (List.replicate (cfg.width * cfg.height) (pixelList v)).flatten := rfl
  rw [hparts, List.map_append, Ctrl.consumeAll_append, Ctrl.consumeAll_window_memwr_of_ready hdistinct h hx hy]
  obtain ⟨hdone, hsame⟩ := hfilling.consumeAll fun col row => (fullWindow_has_iff hfits col row).1
  exact ⟨hsame, fun x y hview =>
    hdone.read_eq ((fullWindow_has_iff hfits _ _).2 ((inExtent_addr_iff hfits x y).2 hview))⟩

/-- Settles O56: CLEAR gives every visible pixel the colour and no mark, and SETPIXEL then writes one cell, which is
that of no other pixel. -/
theorem clearThenSetPixelDiffersInOne : Obligations.ClearThenSetPixelDiffersInOne := by
  intro cfg c x y color c2 hdistinct hfits h hmark hview hne
  obtain ⟨hsame, hcolor⟩ := Ctrl.consumeAll_fillList_of_ready hdistinct hfits h color
  have hlist : ucode cfg .clear 0#16 0#16 color 0#1 = fillList cfg color := rfl
  rw [hlist]
  generalize c.consumeAll cfg ((fillList cfg color).map Micro.event) = d at hsame hcolor
  have hready : d.ready cfg = true := by
    rw [hsame]
    exact h
  have hmark' : d.NoMark := by
    rw [hsame]
    exact hmark
  have hset := Ctrl.consumeAll_setPixel_inView hdistinct hfits hready hview c2
  generalize d.consumeAll cfg ((ucode cfg .setPixel x y c2 0#1).map Micro.event) = e at hset ⊢
  have hmark'' : e.NoMark := by
    rw [hset]
    exact hmark'
  have hgram : e.gram = d.gram.write (gramKey (addrX x) (addrY y)) c2 := by rw [hset]
  refine ⟨hmark'', fun x' y' hview' => ?_⟩
  rw [Ctrl.visible_of_noMark hmark'' hview', hgram]
  by_cases hpixel : x' = x ∧ y' = y
  · obtain ⟨rfl, rfl⟩ := hpixel
    simp [Gram.visible_write_same, hne]
  · simp [Gram.visible_write_other _ _ hpixel, hcolor x' y' hview', hpixel]

end Sys2Proof.Machine
end

section
/-! PROOFS. The free-running timer and the periodic-tick counter (42_timer.md): the host's operations on them, a turn of
CLK and of TICK, and n turns in a row. -/

namespace Sys2Proof.Machine

variable {s : State}

/-! The host's operations (rules R182 to R187). -/

theorem zextHalf_eq_ofNat (v : Half) : zextHalf v = BitVec.ofNat 32 v.toNat := (BitVec.ofNat_toNat 32 v).symm

theorem zextHalf_toNat (v : Half) : (zextHalf v).toNat = v.toNat := BitVec.toNat_setWidth_of_le (by decide)

/-- Rule R183: the subtraction is modulo 65536. -/
theorem elapsedTicks_toNat (start stop : Half) :
    (elapsedTicks start stop).toNat = (65536 + stop.toNat - start.toNat) % 65536 := by
  have hstart := start.isLt
  have hsub : (elapsedTicks start stop).toNat = (2 ^ 16 - start.toNat + stop.toNat) % 2 ^ 16 :=
    BitVec.toNat_sub stop start
  omega

/-- Rule R184: the subtraction wraps at most once. -/
theorem elapsedTicks_toNat_eq_ite (start stop : Half) : (elapsedTicks start stop).toNat =
    if start.toNat ≤ stop.toNat then stop.toNat - start.toNat else stop.toNat + 65536 - start.toNat := by
  have hstart := start.isLt
  have hstop := stop.isLt
  rw [elapsedTicks_toNat]
  split_ifs with h <;> omega

theorem exec_elapsed_of_idle (h : s.seqOp = .none) (start stop : Half) :
    exec (.elapsed start stop) s = .next (s.setRes (zextHalf (elapsedTicks start stop))) := by
  rw [exec_elapsed, State.onPort_free h]

/-- Settles O6: each goes through the free port to its write of RES. -/
theorem timerOperationsComplete : Obligations.TimerOperationsComplete := by
  refine fun s hidle => ⟨?_, fun start stop => ?_, ?_⟩
  · rw [exec_tmrrd, State.onPort_free hidle, zextHalf_eq_ofNat]
    rfl
  · rw [exec_elapsed_of_idle hidle, zextHalf_eq_ofNat, elapsedTicks_toNat]
    rfl
  · rw [exec_cntrd, State.onPort_free hidle]
    rfl

/-- Settles O7: the word decodes, and the free port lets both writes through. -/
theorem cntrstClearsCount : Obligations.CntrstClearsCount := by
  refine ⟨by decide, fun s hidle => ?_⟩
  rw [exec_cntrst, State.onPort_free hidle]
  rfl

/-- Settles O40: RES holds the difference, and the write of RES leaves the flags alone. -/
theorem elapsedArithmeticLaw : Obligations.ElapsedArithmeticLaw := by
  intro s start stop hidle
  refine ⟨_, exec_elapsed_of_idle hidle start stop, State.setRes_flag .., ?_⟩
  rw [State.setRes_res, zextHalf_toNat, elapsedTicks_toNat_eq_ite]

/-! The agents CLK and TICK (rules R180, R188). -/

theorem add_one_eq_ofNat {w : Nat} (v : BitVec w) : v + 1#w = BitVec.ofNat w ((v.toNat + 1) % 2 ^ w) := by
  apply BitVec.eq_of_toNat_eq
  simp

theorem State.clkStep_eq_ofNat (s : State) :
    s.clkStep = s.setCnt (BitVec.ofNat 16 ((s.cnt.toNat + 1) % 65536)) :=
  congrArg s.setCnt (add_one_eq_ofNat s.cnt)

theorem State.tickStep_eq_ofNat (s : State) :
    s.tickStep = s.setCount (BitVec.ofNat 32 ((s.count.toNat + 1) % 4294967296)) :=
  congrArg s.setCount (add_one_eq_ofNat s.count)

/-- Settles O20: the step is a turn of CLK or of TICK, which adds one to its counter. -/
theorem countersStep : Obligations.CountersStep := by
  refine fun s rest => ⟨fun hsched => (step_cons hsched).trans ?_, fun hsched => (step_cons hsched).trans ?_⟩
  · exact congrArg Host.Outcome.next (State.clkStep_eq_ofNat { s with sched := rest })
  · exact congrArg Host.Outcome.next (State.tickStep_eq_ofNat { s with sched := rest })

/-- An agent that always takes the step `u`, which does not look at the schedule, and is scheduled `n` times takes
`u` `n` times. -/
theorem run_replicate {a : Agent} {u : State → State} (hturn : ∀ s, s.agentStep a = Host.Outcome.next (u s))
    (hsched : ∀ s as, u (s.withSched as) = (u s).withSched as) (n : Nat) (s : State) :
    Sys2Proof.core.run n (s.withSched (List.replicate n a)) = .next ((u^[n] s).withSched []) := by
  induction n generalizing s with
  | zero => rfl
  | succ n ih =>
    have hstep : step (s.withSched (List.replicate (n + 1) a)) = .next ((u s).withSched (List.replicate n a)) :=
      calc step (s.withSched (List.replicate (n + 1) a))
        _ = (s.withSched (List.replicate n a)).agentStep a := step_cons rfl
        _ = .next ((u s).withSched (List.replicate n a)) := by rw [hturn, hsched]
    exact (run_of_step hstep n).trans (ih (u s))

theorem State.iterate_clkStep (n : Nat) (s : State) :
    State.clkStep^[n] s = s.setCnt (s.cnt + BitVec.ofNat 16 n) := by
  induction n with
  | zero => exact congrArg s.setCnt (BitVec.add_zero s.cnt).symm
  | succ n ih =>
    rw [Function.iterate_succ_apply', ih, BitVec.ofNat_add, ← BitVec.add_assoc]
    rfl

theorem State.iterate_tickStep (n : Nat) (s : State) :
    State.tickStep^[n] s = s.setCount (s.count + BitVec.ofNat 32 n) := by
  induction n with
  | zero => exact congrArg s.setCount (BitVec.add_zero s.count).symm
  | succ n ih =>
    rw [Function.iterate_succ_apply', ih, BitVec.ofNat_add, ← BitVec.add_assoc]
    rfl

/-- Rule R185: whatever CNT held at the first reading, it cancels. -/
theorem elapsedTicks_add (v d : Half) : elapsedTicks v (v + d) = d := by
  rw [elapsedTicks, BitVec.add_comm, BitVec.add_sub_cancel]

/-- Settles O38: n turns of CLK add n to CNT, and the reading before cancels. -/
theorem elapsedCountsTicksModulo : Obligations.ElapsedCountsTicksModulo := by
  intro s n
  refine ⟨_, run_replicate (u := State.clkStep) (fun _ => rfl) (fun _ _ => rfl) n s, ?_⟩
  rw [State.iterate_clkStep]
  exact ⟨rfl, (congrArg BitVec.toNat (elapsedTicks_add ..)).trans (BitVec.toNat_ofNat n 16)⟩

/-- Settles O39: n turns of TICK add n to COUNT. -/
theorem countCountsTicksModulo : Obligations.CountCountsTicksModulo := by
  intro s n
  refine ⟨_, run_replicate (u := State.tickStep) (fun _ => rfl) (fun _ _ => rfl) n s, ?_⟩
  rw [State.iterate_tickStep]
  refine ⟨rfl, ?_⟩
  calc (s.count + BitVec.ofNat 32 n).toNat
    _ = (s.count.toNat + n % 2 ^ 32) % 2 ^ 32 := by rw [BitVec.toNat_add, BitVec.toNat_ofNat]
    _ = (s.count.toNat + n) % 4294967296 := Nat.add_mod_mod ..

end Sys2Proof.Machine
end

section
/-! PROOFS. The debounced input sampler (43_input_sampler.md): the host's operations on the flags, the edges of a pin
and the relook, the one step that sets a flag, and a bouncing pin. -/

namespace Sys2Proof.Machine

variable {s t : State} {i j : Button}

/-! The host's operations (rules R206 to R208). -/

theorem zextBit_eq_ofNat (b : Bit) : zextBit b = BitVec.ofNat 32 b.toNat := (BitVec.ofNat_toNat 32 b).symm

/-- Settles O8: the six words decode, and the free port lets each operation's writes through. -/
theorem flagOperationsComplete : Obligations.FlagOperationsComplete := by
  refine ⟨by decide, fun s hidle i => ⟨?_, ?_, ?_⟩⟩
  · rw [exec_flagrd, State.onPort_free hidle, zextBit_eq_ofNat]
    rfl
  · rw [exec_flagclr, State.onPort_free hidle]
    rfl
  · rw [exec_flagrc, State.onPort_free hidle, zextBit_eq_ofNat]
    rfl

/-! The edges of a pin (rules R201, R204). -/

theorem State.pinFallStep_of_released (h : s.pin.get i = 1#1) : s.pinFallStep i = (s.writePin i 0#1).enterEvent i :=
  if_pos h

theorem State.enterEvent_of_idle (h : s.db.get i = .idle) : s.enterEvent i = s.writeDb i .settle := if_pos h

/-- A settle in progress does not remember another fall (rule R204). -/
theorem State.enterEvent_of_settle (h : s.db.get i = .settle) : s.enterEvent i = s := by
  simp [State.enterEvent, h]

theorem State.pinRiseStep_of_pressed (h : s.pin.get i = 0#1) : s.pinRiseStep i = s.writePin i 1#1 := if_pos h

/-- Settles O21: the step is the edge of the scheduled pin, and only a fall enters the event. -/
theorem pinStepsStartSettle : Obligations.PinStepsStartSettle := by
  intro s rest i
  let u : State := { s with sched := rest }
  refine ⟨fun hsched hreleased => ?_, fun hsched hpressed => ?_⟩
  · have hstep : step s = .next ((u.writePin i 0#1).enterEvent i) :=
      (step_cons hsched).trans (congrArg Host.Outcome.next (State.pinFallStep_of_released (s := u) hreleased))
    refine ⟨fun hidle => hstep.trans ?_, fun hsettle => hstep.trans ?_⟩
    · exact congrArg Host.Outcome.next (State.enterEvent_of_idle hidle)
    · exact congrArg Host.Outcome.next (State.enterEvent_of_settle hsettle)
  · exact (step_cons hsched).trans (congrArg Host.Outcome.next (State.pinRiseStep_of_pressed (s := u) hpressed))

/-! The relook (rule R203). -/

theorem State.dbStep_of_settle (h : s.db.get i = .settle) : s.dbStep i = (s.latchFlag i).writeDb i .idle := if_pos h

/-- The latch writes nothing but the flag. -/
theorem State.latchFlag_eq (s : State) (i : Button) :
    s.latchFlag i = { s with flag := if s.pin.get i = 0#1 then s.flag.set 1#1 i else s.flag } := by
  unfold State.latchFlag
  split_ifs <;> rfl

/-- The relook as a step of the machine: it writes DB[i] and, by the level of the pin, FLAG[i]. -/
theorem step_relook {rest : List Agent} (hsched : s.sched = .db i :: rest) (hsettle : s.db.get i = .settle) :
    step s = .next { s with
      sched := rest, flag := if s.pin.get i = 0#1 then s.flag.set 1#1 i else s.flag, db := s.db.set .idle i } := by
  let u : State := { s with sched := rest }
  calc step s
    _ = u.agentStep (.db i) := step_cons hsched
    _ = .next ((u.latchFlag i).writeDb i .idle) := congrArg Host.Outcome.next (State.dbStep_of_settle hsettle)
    _ = _ := by rw [State.latchFlag_eq]; rfl

/-- A step confined to one button leaves the other button's cells as they were. -/
theorem StatePart.Confines.other_button {u : State → State} (hu : (StatePart.button i).Confines u) (h : j ≠ i)
    (s : State) : (u s).pin.get j = s.pin.get j ∧ (u s).db.get j = s.db.get j ∧ (u s).flag.get j = s.flag.get j := by
  rw [hu.eq_take s]
  simp [StatePart.button, h]

/-- The relook of a debouncer leaves a flag alone, or is that button's own with the pin low, and sets it. -/
theorem State.dbStep_flag_cases (s : State) (k i : Button) :
    (s.dbStep k).flag.get i = s.flag.get i ∨
      k = i ∧ s.db.get i = .settle ∧ s.pin.get i = 0#1 ∧ (s.dbStep k).flag.get i = 1#1 := by
  by_cases hk : i = k
  · subst hk
    obtain ⟨hsettle, hlow, e⟩ | ⟨-, -, e⟩ | ⟨-, e⟩ := s.dbStep_cases i
    · exact .inr ⟨rfl, hsettle, hlow, by simp [e]⟩
    · exact .inl (by rw [e, State.writeDb_flag])
    · exact .inl (by rw [e])
  · obtain ⟨-, -, hflag⟩ := (StatePart.dbStep_confined k).other_button hk s
    exact .inl hflag

@[simp] theorem State.pinFallStep_flag (s : State) (k : Button) : (s.pinFallStep k).flag = s.flag := by
  obtain ⟨-, -, e⟩ | ⟨-, -, e⟩ | ⟨-, e⟩ := s.pinFallStep_cases k <;> simp [e]

@[simp] theorem State.pinRiseStep_flag (s : State) (k : Button) : (s.pinRiseStep k).flag = s.flag := by
  obtain ⟨-, e⟩ | ⟨-, e⟩ := s.pinRiseStep_cases k <;> simp [e]

/-- HOST never sets a flag: it issues FLAGCLR or FLAGRC, or leaves the flags alone (10_state.md rule R28). -/
theorem State.hostStep_flag_cases (h : s.hostStep = .next t) (i : Button) :
    t.flag.get i = s.flag.get i ∨ t.flag.get i = 0#1 := by
  obtain ⟨g, n, -, rfl⟩ | ⟨-, g, n, d, k, -, he⟩ := State.hostStep_cases h
  · exact .inl rfl
  · exact (exec_flag_cases he i).imp_right And.right

/-- A turn of an agent leaves a flag alone, or is HOST's and clears it, or is the button's relook with the pin low
and sets it. -/
theorem State.agentStep_flag_cases {a : Agent} (h : s.agentStep a = .next t) (i : Button) :
    t.flag.get i = s.flag.get i ∨ (a = .host ∧ t.flag.get i = 0#1) ∨
      (a = .db i ∧ s.db.get i = .settle ∧ s.pin.get i = 0#1 ∧ t.flag.get i = 1#1) := by
  cases a with
  | host => exact (State.hostStep_flag_cases h i).imp_right fun hclear => .inl ⟨rfl, hclear⟩
  | seq => cases h; exact .inl (by rw [State.seqStep_flag])
  | tx => cases h; exact .inl (congrArg (·.flag.get i) (StatePart.txStep_confined.eq_take s))
  | clk => cases h; exact .inl rfl
  | tick => cases h; exact .inl rfl
  | db k =>
    cases h
    exact (s.dbStep_flag_cases k i).imp_right fun ⟨hk, hrelook⟩ => .inr ⟨congrArg Agent.db hk, hrelook⟩
  | pinFall k => cases h; exact .inl (by rw [State.pinFallStep_flag])
  | pinRise k => cases h; exact .inl (by rw [State.pinRiseStep_flag])
  | ctrl =>
    obtain ⟨done, todo, c, e⟩ := s.ctrlStep_next
    cases e.symm.trans h
    exact .inl rfl

/-- Settles O22: the relook latches by the level of the pin, and of all turns only a relook takes a flag from 0 to
1. -/
theorem relookLatchesIfStillPressed : Obligations.RelookLatchesIfStillPressed := by
  refine ⟨fun s rest i hsched hsettle => ?_, fun s t i h hclear hset => ?_⟩
  · rw [step_relook hsched hsettle]
    refine ⟨fun hlow => ?_, fun hhigh => ?_⟩
    · rw [if_pos hlow]
    · rw [if_neg (by simp [hhigh])]
  · obtain ⟨l, n, e⟩ := step_eq_agentStep s
    obtain hsame | ⟨-, hcleared⟩ | ⟨hagent, hsettle, hlow, -⟩ := State.agentStep_flag_cases (e.symm.trans h) i
    · simp [hset, hclear] at hsame
    · simp [hset] at hcleared
    · exact ⟨hagent, hsettle, hlow⟩

/-! A bouncing pin (rule R210). -/

theorem State.writePin_self (s : State) (i : Button) : s.writePin i (s.pin.get i) = s := by cases i <;> rfl

theorem State.writePin_writePin (s : State) (i : Button) (v w : Bit) :
    (s.writePin i v).writePin i w = s.writePin i w := by cases i <;> rfl

/-- A turn for an edge inside a settle (rules R201, R204). -/
theorem State.agentStep_edge_of_settle {a : Agent} (ha : a = .pinFall i ∨ a = .pinRise i)
    (hsettle : s.db.get i = .settle) : ∃ v, s.agentStep a = .next (s.writePin i v) := by
  obtain rfl | rfl := ha
  · obtain ⟨-, hidle, -⟩ | ⟨-, -, e⟩ | ⟨-, e⟩ := s.pinFallStep_cases i
    · simp [hsettle] at hidle
    · exact ⟨0#1, congrArg Host.Outcome.next e⟩
    · exact ⟨_, congrArg Host.Outcome.next (e.trans (s.writePin_self i).symm)⟩
  · obtain ⟨-, e⟩ | ⟨-, e⟩ := s.pinRiseStep_cases i
    · exact ⟨1#1, congrArg Host.Outcome.next e⟩
    · exact ⟨_, congrArg Host.Outcome.next (e.trans (s.writePin_self i).symm)⟩

/-- Inside a settle any number of edges of the pin changes the pin and nothing else. -/
theorem run_edges_of_settle (rest es : List Agent) (hes : ∀ a ∈ es, a = .pinFall i ∨ a = .pinRise i)
    (hsettle : s.db.get i = .settle) :
    ∃ v, Sys2Proof.core.run es.length (s.withSched (es ++ rest)) = .next ((s.writePin i v).withSched rest) := by
  induction es generalizing s with
  | nil => exact ⟨s.pin.get i, by rw [State.writePin_self]; rfl⟩
  | cons a es ih =>
    obtain ⟨ha, hes⟩ := List.forall_mem_cons.1 hes
    obtain ⟨w, hturn⟩ := State.agentStep_edge_of_settle (s := s.withSched (es ++ rest)) ha hsettle
    have hstep : step (s.withSched (a :: es ++ rest)) = .next ((s.writePin i w).withSched (es ++ rest)) :=
      (step_cons rfl).trans hturn
    obtain ⟨v, hrun⟩ := ih (s := s.writePin i w) hes hsettle
    rw [State.writePin_writePin] at hrun
    exact ⟨v, (run_of_step hstep es.length).trans hrun⟩

/-- Settles O37: the first fall enters the settle, the edges inside it move the pin only, and the one relook leaves
it. -/
theorem bounceLatchesAtMostOnce : Obligations.BounceLatchesAtMostOnce := by
  intro s i es hidle hreleased hes
  let settling := (s.writePin i 0#1).writeDb i .settle
  have hsettle : settling.db.get i = .settle := PerButton.get_set_self ..
  obtain ⟨hfalls, -⟩ := pinStepsStartSettle (s.withSched (.pinFall i :: (es ++ [.db i]))) (es ++ [.db i]) i
  have hfall : step (s.withSched (.pinFall i :: (es ++ [.db i]))) = .next (settling.withSched (es ++ [.db i])) :=
    (hfalls rfl hreleased).1 hidle
  obtain ⟨v, hedges⟩ := run_edges_of_settle [.db i] es hes hsettle
  have hrelook := step_relook (s := (settling.writePin i v).withSched [.db i]) rfl hsettle
  refine ⟨_, _, (run_of_step hfall es.length).trans hedges, hrelook, rfl, rfl, rfl, PerButton.get_set_self .., rfl,
    fun j hj => ⟨?_, ?_, ?_⟩⟩
  · simp [settling, State.withSched, hj]
  · simp [settling, State.withSched, hj]
  · split_ifs <;> simp [settling, State.withSched, hj]

end Sys2Proof.Machine
end

section
/-! PROOFS. The reference host (45_host_reference.md): the match predicate and the figure it reports (rules R237 to
R239), what each phase of its engine does (rule R236), and a turn of HOST with the engine as host. -/

namespace Sys2Proof.Machine

/-! The match predicate and the time figure (rules R237, R238). -/

/-- Below 20 % of full scale, in whole samples. -/
theorem below_fifth_of_fullScale_iff (n : Nat) : 5 * n < Config.adcFullScale ↔ n ≤ 3276 := by
  rw [Config.adcFullScale]
  omega

/-- Above 80 % of full scale, in whole samples. -/
theorem above_four_fifths_of_fullScale_iff (n : Nat) : 4 * Config.adcFullScale < 5 * n ↔ 13108 ≤ n := by
  rw [Config.adcFullScale]
  omega

/-- Settles O57: Up and Right look below the lower bound, Down and Left above the upper one. -/
theorem matchThresholds : Obligations.MatchThresholds := by
  intro v
  have hlow := decide_eq_true_iff.trans (below_fifth_of_fullScale_iff v.toNat)
  have hhigh := decide_eq_true_iff.trans (above_four_fifths_of_fullScale_iff v.toNat)
  exact ⟨hlow, hlow, hhigh, hhigh⟩

/-- Settles O58: the figure is computed in the naturals, which the integers contain. -/
theorem timeFigureFormula : Obligations.TimeFigureFormula := by
  intro st count ticks
  simp only [timeFigure, Config.countWeight, Config.ticksPerMs, Config.crossCorr]
  push_cast
  rfl

/-! The output of the figure (rule R239). -/

theorem digit_lt_ten (t k : Nat) : digit t k < 10 := Nat.mod_lt _ (by decide)

/-- A number below 10^5 is the decimal value of its five digits. -/
theorem eq_decimal_value_of_digits {t : Nat} (h : t ≤ 99999) :
    t = digit t 4 * 10000 + digit t 3 * 1000 + digit t 2 * 100 + digit t 1 * 10 + digit t 0 := by
  unfold digit
  omega

theorem timeChars_of_le (draw : Nat) {t : Nat} (h : t ≤ 99999) :
    timeChars draw t = [4, 3, 2, 1, 0].map fun k => digitChar (digit t k) :=
  if_pos ⟨by omega, by omega⟩

/-- Settles O59: the digits are those the model writes. -/
theorem outputIsDecimal : Obligations.OutputIsDecimal := fun draw t h =>
  ⟨digit t 4, digit t 3, digit t 2, digit t 1, digit t 0, digit_lt_ten .., digit_lt_ten .., digit_lt_ten ..,
    digit_lt_ten .., digit_lt_ten .., eq_decimal_value_of_digits h, timeChars_of_le draw h⟩

/-! The renderer (rule R235). -/

/-- Whatever the geometry, the renderer keeps only pixels of the extent. -/
theorem inView_of_mem_renderPixels {cfg : Cfg} {st : Stimulus} {p : Half × Half} (h : p ∈ renderPixels cfg st) :
    cfg.InView p.1 p.2 :=
  of_decide_eq_true (List.mem_filter.1 h).2

/-! The phases of the engine (rule R236). -/

section Phases

variable {cfg : Cfg} {res : Word} {draw : Nat} {e : Engine}

/-- A turn looks at the phase first. In a phase without a branch the right side computes. -/
theorem Engine.turn_of_phase {p : Phase} (h : e.phase = p) :
    e.turn cfg res draw = ({ e with phase := p } : Engine).turn cfg res draw := by
  subst h
  rfl

theorem Engine.turn_of_render_cons {p : Half × Half} {ps : List (Half × Half)} (h : e.phase = .render)
    (htodo : e.todo = p :: ps) :
    e.turn cfg res draw = ({ e with todo := ps }, some (.setPixel p.1 p.2 Config.stimulusColor)) := by
  simp only [Engine.turn, h, htodo]

theorem Engine.turn_of_render_nil (h : e.phase = .render) (htodo : e.todo = []) :
    e.turn cfg res draw = ({ e with phase := .clearConfirm, axis := axisOf e.stimulus }, none) := by
  simp only [Engine.turn, h, htodo]

/-- The poll of START. -/
theorem Engine.turn_of_idleTest (h : e.phase = .idleTest) : e.turn cfg res draw =
    if res = 1#32 then ({ e with phase := .choose }, some (.flagclr .start)) else (e, some (.flagrd .start)) := by
  simp only [Engine.turn, h]

/-- The poll of CONFIRM in a Cross round. -/
theorem Engine.turn_of_crossTest (h : e.phase = .crossTest) : e.turn cfg res draw =
    if res = 1#32 then ({ e with phase := .latchEnd }, some .tmrrd) else (e, some (.flagrd .confirm)) := by
  simp only [Engine.turn, h]

/-- A Cross round polls the flag. -/
theorem Engine.turn_of_evaluate_cross (h : e.phase = .evaluate) (hcross : e.stimulus = .cross) :
    e.turn cfg res draw = ({ e with phase := .crossTest }, some (.flagrd .confirm)) := by
  simp only [Engine.turn, h, hcross, if_true]

/-- A directional round takes a fresh sample. -/
theorem Engine.turn_of_evaluate_directional (h : e.phase = .evaluate) (hcross : e.stimulus ≠ .cross) :
    e.turn cfg res draw =
      if sampleMatches e.stimulus (Config.freeSample draw) then ({ e with phase := .latchEnd }, some .tmrrd)
      else (e, none) := by
  simp only [Engine.turn, h, hcross, if_false]

/-- Rule R232: no turn of AwaitingMatch changes the axis. -/
theorem Engine.axis_turn_of_awaitingMatch (h : e.phase = .evaluate ∨ e.phase = .crossTest) :
    (e.turn cfg res draw).1.axis = e.axis := by
  obtain h | h := h
  · by_cases hcross : e.stimulus = .cross
    · rw [Engine.turn_of_evaluate_cross h hcross]
    · rw [Engine.turn_of_evaluate_directional h hcross]
      split_ifs <;> rfl
  · rw [Engine.turn_of_crossTest h]
    split_ifs <;> rfl

/-- Every operation the engine issues is one of the host port, none a row of the link. -/
theorem Engine.encode_of_turn {e' : Engine} {i : Instr} (h : e.turn cfg res draw = (e', some i)) (cfg' : Cfg) :
    ∃ d, encode cfg' i = .descriptor d := by
  cases hphase : e.phase with
  | idleTest =>
    rw [Engine.turn_of_idleTest hphase] at h
    split_ifs at h <;> cases h <;> exact ⟨_, rfl⟩
  | render =>
    cases htodo : e.todo with
    | nil => cases (Engine.turn_of_render_nil hphase htodo).symm.trans h
    | cons p ps =>
      cases (Engine.turn_of_render_cons hphase htodo).symm.trans h
      exact ⟨_, rfl⟩
  | evaluate =>
    by_cases hcross : e.stimulus = .cross
    · cases (Engine.turn_of_evaluate_cross hphase hcross).symm.trans h
      exact ⟨_, rfl⟩
    · rw [Engine.turn_of_evaluate_directional hphase hcross] at h
      split_ifs at h <;> cases h
      exact ⟨_, rfl⟩
  | crossTest =>
    rw [Engine.turn_of_crossTest hphase] at h
    split_ifs at h <;> cases h <;> exact ⟨_, rfl⟩
  | choose | latchStart | report => cases (Engine.turn_of_phase hphase).symm.trans h
  | boot | idleClear | idlePoll | clearConfirm | resetCount | readStart | latchEnd | latchTicks =>
    cases (Engine.turn_of_phase hphase).symm.trans h
    exact ⟨_, rfl⟩

end Phases

/-! A turn of HOST with the engine as host (rule R236). -/

section HostTurn

variable {s : State} {e e' : Engine} {i : Instr}

theorem State.presentInstr_of_encode {d : Descriptor} (h : encode s.cfg i = .descriptor d) :
    s.presentInstr i = exec i s := by
  simp only [State.presentInstr, h, State.present_of_decode (decode_of_encode h)]

theorem State.engineTurn_of_none (h : e.turn s.cfg s.res s.draws = (e', none)) :
    s.engineTurn e = .next { s with host := .engine e', draws := s.draws + 1 } := by
  simp only [State.engineTurn, h]

theorem State.engineTurn_of_some (h : e.turn s.cfg s.res s.draws = (e', some i)) :
    s.engineTurn e = exec i { s with host := .engine e', draws := s.draws + 1 } := by
  obtain ⟨d, hd⟩ := Engine.encode_of_turn h s.cfg
  simp only [State.engineTurn, h]
  exact State.presentInstr_of_encode hd

theorem State.hostStep_of_engine (hidle : s.seqOp = .none) (hhost : s.host = .engine e) :
    s.hostStep = s.engineTurn e := by
  simp only [State.hostStep, State.portFree_iff.2 hidle, hhost, if_true]

/-- A step in which HOST is the engine at a free port. -/
theorem step_of_engine {rest : List Agent} (hsched : s.sched = .host :: rest) (hidle : s.seqOp = .none)
    (hhost : s.host = .engine e) : step s = ({ s with sched := rest } : State).engineTurn e :=
  (step_cons hsched).trans (State.hostStep_of_engine (s := { s with sched := rest }) hidle hhost)

end HostTurn

/-- Settles O60: the clauses of the engine are its turn in each phase, and a step of HOST is such a turn. -/
theorem engineDuties : Obligations.EngineDuties := by
  refine ⟨fun cfg st p => inView_of_mem_renderPixels, fun cfg res draw e => ?_,
    fun s rest e e' hsched hidle hhost => ⟨fun h => ?_, fun i h => ?_⟩⟩
  · exact ⟨-- INIT, CLEAR, the first poll of START
      Engine.turn_of_phase, Engine.turn_of_phase, Engine.turn_of_phase,
      -- the stimulus chosen and drawn
      fun h => ⟨_, Engine.turn_of_phase h⟩,
      fun h => ⟨fun p ps => Engine.turn_of_render_cons h, Engine.turn_of_render_nil h⟩,
      -- the round start: FLAGCLR CONFIRM, CNTRST, TMRRD and its result
      Engine.turn_of_phase, Engine.turn_of_phase, Engine.turn_of_phase,
      fun h => by rw [BitVec.ofNat_toNat]; exact Engine.turn_of_phase h,
      -- the round's end: ELAPSED, CNTRD, the report
      fun h => by rw [BitVec.ofNat_toNat]; exact Engine.turn_of_phase h,
      fun h => by rw [BitVec.ofNat_toNat]; exact Engine.turn_of_phase h,
      Engine.turn_of_phase,
      -- AwaitingMatch
      Engine.axis_turn_of_awaitingMatch, Engine.turn_of_evaluate_directional, Engine.turn_of_evaluate_cross,
      fun h => ⟨fun hset => (Engine.turn_of_crossTest h).trans (if_pos hset),
        fun hclear => (Engine.turn_of_crossTest h).trans (if_neg hclear)⟩,
      -- the polls of START that follow
      fun h => ⟨fun hset => (Engine.turn_of_idleTest h).trans (if_pos hset),
        fun hclear => (Engine.turn_of_idleTest h).trans (if_neg hclear)⟩⟩
  · exact (step_of_engine hsched hidle hhost).trans (State.engineTurn_of_none (s := { s with sched := rest }) h)
  · exact (step_of_engine hsched hidle hhost).trans (State.engineTurn_of_some (s := { s with sched := rest }) h)

end Sys2Proof.Machine
end

section
/-! PROOFS. A turn of CTRL consumes the next event of LINK (46_controller_double.md rule R260): a frame as the link row
its word decodes to (30_encoding.md rule R100), a command byte that names none (rule R262), the reset pulse (rule
R271). -/

namespace Sys2Proof.Machine

variable {s t : State} {rest : List Agent} {e : LinkEvent} {es : List LinkEvent} {cfg : Cfg} {b : Byte}

/-- A frame whose word names a link row runs that row. -/
theorem State.receiveFrame_of_decode {dc : Bit} {i : Instr} (h : decodeFrame s.cfg (frameBits dc b) = some i) :
    s.receiveFrame dc b = exec i s := by
  simp [State.receiveFrame, h]

/-- Settles O14: the step is CTRL's turn with the turn used up, which moves the frame and receives it. -/
theorem stepRunsReceivedFrame : Obligations.StepRunsReceivedFrame := by
  intro s rest dc b es i hsched htodo hdecode
  rw [step_cons hsched]
  simp only [State.agentStep, State.ctrlStep, htodo]
  exact State.receiveFrame_of_decode (s := State.popEvent { s with sched := rest } (.frame dc b) es) hdecode

/-- CTRL's step with an event to consume, whatever the event. -/
theorem step_of_ctrl (hsched : s.sched = .ctrl :: rest) (htodo : s.linkTodo = e :: es) :
    step s = .next { s with
      sched := rest, linkDone := s.linkDone ++ [e], linkTodo := es, ctrl := s.ctrl.consume s.cfg e } := by
  rw [step_cons hsched]
  exact State.ctrlStep_cons (s := { s with sched := rest }) htodo

/-- Settles O15: the event passes from the unconsumed to the consumed part of LINK, which are read one after the
other. -/
theorem controllerConsumesLinkInOrder : Obligations.ControllerConsumesLinkInOrder := by
  intro s rest e es hsched htodo
  refine ⟨_, step_of_ctrl hsched htodo, ?_, rfl⟩
  simp [State.link, htodo]

/-- A byte that is that of no command names none. -/
theorem Cfg.symbolOf_eq_none (h : ∀ sym, cfg.cmdByte sym ≠ b) : cfg.symbolOf b = none :=
  List.find?_eq_none.2 fun sym _ => by simpa using h sym

theorem Ctrl.consume_unknown_command {c : Ctrl} (h : ∀ sym, cfg.cmdByte sym ≠ b) :
    c.consume cfg (.frame 0#1 b) = (c.track cfg (.frame 0#1 b)).unknownCommand := by
  simp [Ctrl.consume, Cfg.symbolOf_eq_none h]

/-- Settles O43: the comparison with E moves only the place in E and UNDEFINED, the unknown command only what it
marks and drops. -/
theorem unknownCommandIsMarked : Obligations.UnknownCommandIsMarked := by
  intro s rest b es hsched htodo hunknown
  refine ⟨_, step_of_ctrl hsched htodo, ?_⟩
  rw [Ctrl.consume_unknown_command hunknown, Ctrl.track_eq]
  exact ⟨rfl, rfl, rfl, rfl, rfl, rfl, rfl, rfl, rfl, rfl, rfl, fun _ => rfl⟩

/-- Settles O49: what CTRL makes of RST_ASSERT is the reset pulse, and INIT's list begins with it. -/
theorem resetPulseEmptiesController : Obligations.ResetPulseEmptiesController := by
  intro s rest es hsched htodo
  exact ⟨_, step_of_ctrl hsched htodo, rfl, rfl, rfl, rfl, rfl, rfl, rfl, rfl, rfl, fun _ => rfl, rfl,
    ⟨rfl, rfl, rfl⟩, rfl⟩

end Sys2Proof.Machine
end

section
/-! PROOFS. What a command frame makes of the controller (46_controller_double.md rule R262). -/

namespace Sys2Proof.Machine

variable {c : Ctrl}

/-- Opening the cursor writes the cursor and sets CORRUPT or leaves it. -/
theorem Ctrl.openCursor_eq (c : Ctrl) : ∃ cur corrupt, c.openCursor = { c with cur := cur, corrupt := corrupt } ∧
    (c.corrupt = true → corrupt = true) := by
  obtain ⟨_, _, _, _, -, -, -, -, -, -, e⟩ | e := c.openCursor_cases
  · exact ⟨_, _, e, id⟩
  · exact ⟨_, _, e, fun _ => rfl⟩

/-- Every command frame drops the half pixel and makes its command current, DISPON switches the display on, and only
RAMWR moves the cursor or sets CORRUPT. -/
theorem Ctrl.command_cases (c : Ctrl) (sym : LinkCmd) : ∃ cur corrupt, c.command sym =
      { c with
        half := none, cmd := some sym, pidx := 0, on := c.on || decide (sym = .dispon), cur := cur,
        corrupt := corrupt } ∧
    (sym ≠ .ramwr → cur = c.cur ∧ corrupt = c.corrupt) ∧ (c.corrupt = true → corrupt = true) := by
  cases sym with
  | ramwr =>
    obtain ⟨cur, corrupt, e, hkeep⟩ := (c.beginCommand .ramwr).openCursor_eq
    refine ⟨cur, corrupt, ?_, fun h => absurd rfl h, hkeep⟩
    rw [Ctrl.command, e]
    simp [Ctrl.beginCommand]
  | _ => exact ⟨c.cur, c.corrupt, by simp [Ctrl.command, Ctrl.beginCommand], fun _ => ⟨rfl, rfl⟩, id⟩

/-- The controller at another place in E. -/
def Ctrl.withPlace (k : Nat) (undef : Bool) (c : Ctrl) : Ctrl := { c with k := k, undef := undef }

/-- The comparison with E moves only the place and UNDEFINED (rule R270). -/
theorem Ctrl.track_eq_withPlace (cfg : Cfg) (e : LinkEvent) (c : Ctrl) :
    ∃ k undef, c.track cfg e = c.withPlace k undef := ⟨_, _, Ctrl.track_eq cfg e c⟩

/-- A command frame acts on the controller as the comparison with E leaves it. -/
theorem exec_instr_eq_command (sym : LinkCmd) (s : State) : ∃ k undef,
    exec sym.instr s = .next { s with ctrl := (s.ctrl.withPlace k undef).command sym } := by
  obtain ⟨k, undef, e⟩ := s.ctrl.track_eq_withPlace s.cfg (.frame 0#1 (s.cfg.cmdByte sym))
  exact ⟨k, undef, by rw [exec_instr, State.receiveCommand, e]⟩

/-- Settles O41: the fields are those that every command frame writes, and the cursor and CORRUPT those that every
command but RAMWR leaves alone. -/
theorem commandFrameCompletes : Obligations.CommandFrameCompletes := by
  intro s sym
  obtain ⟨k, undef, hexec⟩ := exec_instr_eq_command sym s
  obtain ⟨cur, corrupt, e, hkeep, -⟩ := (s.ctrl.withPlace k undef).command_cases sym
  rw [e] at hexec
  exact ⟨_, hexec, rfl, rfl, rfl, rfl, rfl, rfl, rfl, rfl, rfl, rfl, fun _ => rfl, hkeep⟩

theorem Ctrl.openCursor_of_whole_window {xs xe ys ye : Half} (hxs : c.xs = some xs) (hxe : c.xe = some xe)
    (hys : c.ys = some ys) (hye : c.ye = some ye) : c.openCursor =
      if xs.toNat ≤ xe.toNat ∧ ys.toNat ≤ ye.toNat then { c with cur := .at xs ys }
      else { c with cur := .none, corrupt := true } := by
  simp only [Ctrl.openCursor, hxs, hxe, hys, hye]

theorem Ctrl.openCursor_of_incomplete_window (h : c.xs = none ∨ c.xe = none ∨ c.ys = none ∨ c.ye = none) :
    c.openCursor = { c with cur := .none, corrupt := true } := by
  obtain ⟨_, _, _, _, hxs, hxe, hys, hye, -⟩ | e := c.openCursor_cases
  · simp [hxs, hxe, hys, hye] at h
  · exact e

/-- Settles O42: RAMWR opens the cursor in the window as it stands. -/
theorem memoryWriteOpensCursor : Obligations.MemoryWriteOpensCursor := by
  intro s
  obtain ⟨k, undef, hexec⟩ := exec_instr_eq_command .ramwr s
  refine ⟨_, hexec, fun xs xe ys ye hxs hxe hys hye => ?_, fun hnone => ?_⟩
  · rw [Ctrl.command,
      Ctrl.openCursor_of_whole_window (c := (s.ctrl.withPlace k undef).beginCommand .ramwr) hxs hxe hys hye]
    exact ⟨fun h => by rw [if_pos h]; exact ⟨rfl, rfl⟩, fun h => by rw [if_neg h]; exact ⟨rfl, rfl⟩⟩
  · rw [Ctrl.command,
      Ctrl.openCursor_of_incomplete_window (c := (s.ctrl.withPlace k undef).beginCommand .ramwr) hnone]
    exact ⟨rfl, rfl⟩

end Sys2Proof.Machine
end

section
/-! PROOFS. What a data frame makes of the controller, by the command that is current (46_controller_double.md rules
R263 to R268). -/

namespace Sys2Proof.Machine

variable {s : State} {cfg : Cfg} {c : Ctrl} {b hi : Byte} {sym : LinkCmd} {col row : Half}

/-- A data frame acts on the controller as the comparison with E leaves it. -/
theorem exec_linkData_eq_data (b : Byte) (s : State) : ∃ k undef,
    s.ctrl.track s.cfg (.frame 1#1 b) = s.ctrl.withPlace k undef ∧
    exec (.linkData b) s = .next { s with ctrl := (s.ctrl.withPlace k undef).data s.cfg b } := by
  obtain ⟨k, undef, e⟩ := s.ctrl.track_eq_withPlace s.cfg (.frame 1#1 b)
  exact ⟨k, undef, e, by rw [exec_linkData, State.receiveData, e]⟩

/-! CASET and RASET: the bytes of the window (rule R264). -/

theorem joinBytes_eq_ofNat (hi lo : Byte) : joinBytes hi lo = BitVec.ofNat 16 (hi.toNat * 256 + lo.toNat) := by
  have hhi := hi.isLt
  have hlo := lo.isLt
  apply BitVec.eq_of_toNat_eq
  rw [joinBytes, BitVec.toNat_append, ← Nat.shiftLeft_add_eq_or_of_lt hlo, BitVec.toNat_ofNat, Nat.shiftLeft_eq]
  omega

theorem windowHigh_eq_ofNat (b : Byte) : windowHigh b = some (BitVec.ofNat 16 (b.toNat * 256)) := by
  simp [windowHigh, joinBytes_eq_ofNat]

theorem windowLow_eq_ofNat (w : Option Half) (b : Byte) :
    windowLow w b = w.map fun v => BitVec.ofNat 16 (v.toNat / 256 * 256 + b.toNat) := by
  refine congrFun (congrArg Option.map (funext fun v => ?_)) w
  have hv := v.isLt
  have hhi : (hiByte v).toNat = v.toNat / 256 := by
    rw [hiByte_eq_ofNat, BitVec.toNat_ofNat]
    omega
  rw [joinBytes_eq_ofNat, hhi]

/-- A coordinate of the window after the byte at `pidx`, where its high byte has the place `p` and its low byte the
next. -/
def coordinateAfter (p pidx : Nat) (b : Byte) (w : Option Half) : Option Half :=
  if pidx = p then windowHigh b else if pidx = p + 1 then windowLow w b else w

theorem coordinateAfter_eq_ofNat (p pidx : Nat) (b : Byte) (w : Option Half) : coordinateAfter p pidx b w =
    if pidx = p then some (BitVec.ofNat 16 (b.toNat * 256))
    else if pidx = p + 1 then w.map fun v => BitVec.ofNat 16 (v.toNat / 256 * 256 + b.toNat) else w := by
  rw [coordinateAfter, windowHigh_eq_ofNat, windowLow_eq_ofNat]

/-- The places of the four bytes of a window command, and those of the bytes too many. -/
theorem pidx_cases (n : Nat) : n = 0 ∨ n = 1 ∨ n = 2 ∨ n = 3 ∨ 4 ≤ n ∧ n ≠ 0 ∧ n ≠ 1 ∧ n ≠ 2 ∧ n ≠ 3 := by omega

theorem Ctrl.data_of_caset (hcmd : c.cmd = some .caset) (b : Byte) : c.data cfg b =
    { c with
      xs := coordinateAfter 0 c.pidx b c.xs, xe := coordinateAfter 2 c.pidx b c.xe,
      unmodelled := c.unmodelled || decide (4 ≤ c.pidx), pidx := c.pidx + 1 } := by
  simp only [Ctrl.data, Ctrl.dataEffect, hcmd, Ctrl.casetData, coordinateAfter]
  obtain h | h | h | h | h := pidx_cases c.pidx <;> simp [h]

theorem Ctrl.data_of_raset (hcmd : c.cmd = some .raset) (b : Byte) : c.data cfg b =
    { c with
      ys := coordinateAfter 0 c.pidx b c.ys, ye := coordinateAfter 2 c.pidx b c.ye,
      unmodelled := c.unmodelled || decide (4 ≤ c.pidx), pidx := c.pidx + 1 } := by
  simp only [Ctrl.data, Ctrl.dataEffect, hcmd, Ctrl.rasetData, coordinateAfter]
  obtain h | h | h | h | h := pidx_cases c.pidx <;> simp [h]

/-- Settles O44: each of the four coordinates takes its two bytes, at places 0 and 1 or 2 and 3. -/
theorem windowDataFrames : Obligations.WindowDataFrames := by
  intro s b
  obtain ⟨k, undef, -, hexec⟩ := exec_linkData_eq_data b s
  refine ⟨fun hcmd => ?_, fun hcmd => ?_⟩
  · rw [Ctrl.data_of_caset (c := s.ctrl.withPlace k undef) hcmd] at hexec
    exact ⟨_, hexec, rfl, coordinateAfter_eq_ofNat 0 _ _ _, coordinateAfter_eq_ofNat 2 _ _ _, rfl, rfl, rfl, rfl, rfl,
      rfl, rfl, rfl, rfl, rfl⟩
  · rw [Ctrl.data_of_raset (c := s.ctrl.withPlace k undef) hcmd] at hexec
    exact ⟨_, hexec, rfl, coordinateAfter_eq_ofNat 0 _ _ _, coordinateAfter_eq_ofNat 2 _ _ _, rfl, rfl, rfl, rfl, rfl,
      rfl, rfl, rfl, rfl, rfl⟩

/-! The configuration commands, whose parameters are recorded, and the commands without parameters (rule R263). -/

/-- The commands whose parameters the double records. -/
def configCommands : List LinkCmd := [.gamset, .pwctr, .stba, .colmod, .madctl]

/-- The recorded parameters with further bytes of a command. -/
def Recorded.append (r : Recorded) (sym : LinkCmd) (bs : List Byte) : Recorded :=
  match sym with
  | .gamset => { r with gamset := r.gamset ++ bs }
  | .pwctr => { r with pwctr := r.pwctr ++ bs }
  | .stba => { r with stba := r.stba ++ bs }
  | .colmod => { r with colmod := r.colmod ++ bs }
  | .madctl => { r with madctl := r.madctl ++ bs }
  | _ => r

/-- The current command is one that takes no data frame, or there is none. -/
def Ctrl.TakesNoData (c : Ctrl) : Prop :=
  c.cmd = some .slpout ∨ c.cmd = some .noron ∨ c.cmd = some .dispon ∨ c.cmd = none

/-- The kinds of a current command. -/
theorem Ctrl.cmd_cases (c : Ctrl) : c.cmd = some .caset ∨ c.cmd = some .raset ∨ c.cmd = some .ramwr ∨
    (∃ sym ∈ configCommands, c.cmd = some sym) ∨ c.TakesNoData := by
  unfold Ctrl.TakesNoData
  cases c.cmd with
  | none => simp
  | some sym => cases sym <;> simp [configCommands]

theorem Ctrl.data_of_config (hsym : sym ∈ configCommands) (hcmd : c.cmd = some sym) (b : Byte) :
    c.data cfg b = { c with recorded := c.recorded.append sym [b], pidx := c.pidx + 1 } := by
  simp only [configCommands, List.mem_cons, List.not_mem_nil, or_false] at hsym
  obtain rfl | rfl | rfl | rfl | rfl := hsym <;> simp [Ctrl.data, Ctrl.dataEffect, hcmd, Recorded.append]

theorem Ctrl.data_of_takesNoData (h : c.TakesNoData) (b : Byte) :
    c.data cfg b = { c with unmodelled := true, pidx := c.pidx + 1 } := by
  obtain h | h | h | h := h <;> simp [Ctrl.data, Ctrl.dataEffect, h]

/-! RAMWR: the bytes of a pixel (rules R265 to R267). -/

/-- A whole pixel inside the extent is stored in the cursor's cell. -/
theorem Ctrl.data_second_pixel_byte_of_inExtent (hcmd : c.cmd = some .ramwr) (hhalf : c.half = some hi)
    (hcur : c.cur = .at col row) (hin : inExtent cfg col row = true) (b : Byte) : c.data cfg b =
      { c with
        gram := c.gram.write (gramKey col row) (joinBytes hi b), half := none, cur := c.nextCursor col row,
        pidx := c.pidx + 1 } := by
  rw [Ctrl.data_second_pixel_byte hcmd hhalf hcur, Ctrl.memWrite_of_inExtent hin]

/-- A whole pixel outside the extent is marked. -/
theorem Ctrl.data_second_pixel_byte_of_not_inExtent (hcmd : c.cmd = some .ramwr) (hhalf : c.half = some hi)
    (hcur : c.cur = .at col row) (hin : ¬ inExtent cfg col row = true) (b : Byte) : c.data cfg b =
      { c with corrupt := true, half := none, cur := c.nextCursor col row, pidx := c.pidx + 1 } := by
  rw [Ctrl.data_second_pixel_byte hcmd hhalf hcur, Ctrl.memWrite_of_not_inExtent hin]

/-- A whole pixel with no cell for it, past the window or without one, is marked. -/
theorem Ctrl.data_second_pixel_byte_of_no_cell (hcmd : c.cmd = some .ramwr) (hhalf : c.half = some hi)
    (hcur : c.cur = .stop ∨ c.cur = .none) (b : Byte) :
    c.data cfg b = { c with half := none, corrupt := true, pidx := c.pidx + 1 } := by
  rw [Ctrl.data, Ctrl.dataEffect_of_ramwr hcmd, Ctrl.ramwrData, hhalf]
  obtain h | h := hcur <;> simp [Ctrl.pixel, h]

/-- Everything the second byte of a pixel can write. -/
theorem Ctrl.data_second_pixel_byte_cases (hcmd : c.cmd = some .ramwr) (hhalf : c.half = some hi) (b : Byte) :
    ∃ cur gram corrupt, c.data cfg b =
        { c with cur := cur, half := none, gram := gram, corrupt := corrupt, pidx := c.pidx + 1 } ∧
      (c.corrupt = true → corrupt = true) := by
  rcases hcur : c.cur with - | ⟨col, row⟩ | -
  · exact ⟨_, _, _, Ctrl.data_second_pixel_byte_of_no_cell hcmd hhalf (.inr hcur) b, fun _ => rfl⟩
  · by_cases hin : inExtent cfg col row = true
    · exact ⟨_, _, _, Ctrl.data_second_pixel_byte_of_inExtent hcmd hhalf hcur hin b, id⟩
    · exact ⟨_, _, _, Ctrl.data_second_pixel_byte_of_not_inExtent hcmd hhalf hcur hin b, fun _ => rfl⟩
  · exact ⟨_, _, _, Ctrl.data_second_pixel_byte_of_no_cell hcmd hhalf (.inl hcur) b, fun _ => rfl⟩

/-- Everything a byte of a memory write can write. -/
theorem Ctrl.data_of_ramwr_cases (hcmd : c.cmd = some .ramwr) (b : Byte) : ∃ cur half gram corrupt,
    c.data cfg b = { c with cur := cur, half := half, gram := gram, corrupt := corrupt, pidx := c.pidx + 1 } ∧
    (c.corrupt = true → corrupt = true) := by
  cases hhalf : c.half with
  | none => exact ⟨_, _, _, _, Ctrl.data_first_pixel_byte hcmd hhalf b, id⟩
  | some hi =>
    obtain ⟨cur, gram, corrupt, h⟩ := Ctrl.data_second_pixel_byte_cases (cfg := cfg) hcmd hhalf b
    exact ⟨cur, none, gram, corrupt, h⟩

/-- Once CORRUPT is set the double says nothing of any cell (rule R267). -/
theorem Ctrl.cell_of_corrupt (h : c.corrupt = true) (a : Nat) : c.cell a = none := if_pos h

theorem Ctrl.cell_of_not_corrupt (h : c.corrupt = false) (a : Nat) : c.cell a = c.gram.read a := by
  simp [Ctrl.cell, h]

/-- What the double says of a cell rests on CORRUPT and on what frame memory holds there. -/
theorem Ctrl.cell_congr {d : Ctrl} {a : Nat} (hcorrupt : d.corrupt = c.corrupt)
    (hread : d.gram.read a = c.gram.read a) : d.cell a = c.cell a := by
  simp only [Ctrl.cell, hcorrupt, hread]

/-- Settles O46: the first byte is held; the second is stored in the cursor's cell, or marked. -/
theorem pixelDataFrames : Obligations.PixelDataFrames := by
  intro s b hcmd
  obtain ⟨k, undef, -, hexec⟩ := exec_linkData_eq_data b s
  obtain ⟨_, _, _, _, e, -⟩ := Ctrl.data_of_ramwr_cases (cfg := s.cfg) (c := s.ctrl.withPlace k undef) hcmd b
  refine ⟨_, hexec, (congrArg Ctrl.xs e).trans rfl, (congrArg Ctrl.xe e).trans rfl, (congrArg Ctrl.ys e).trans rfl,
    (congrArg Ctrl.ye e).trans rfl, (congrArg Ctrl.cmd e).trans rfl, (congrArg Ctrl.on e).trans rfl,
    (congrArg Ctrl.recorded e).trans rfl, rfl, (congrArg Ctrl.unmodelled e).trans rfl,
    Ctrl.cell_of_corrupt, fun hhalf => ?_, fun hi hhalf => ⟨?_, fun col row hcur hin => ?_, fun col row hcur hin => ?_,
      fun hcur => ?_⟩⟩
  · rw [Ctrl.data_first_pixel_byte (c := s.ctrl.withPlace k undef) hcmd hhalf]
    exact ⟨rfl, rfl, rfl, rfl, fun _ => rfl⟩
  · obtain ⟨_, _, _, e, -⟩ :=
      Ctrl.data_second_pixel_byte_cases (cfg := s.cfg) (c := s.ctrl.withPlace k undef) hcmd hhalf b
    exact congrArg Ctrl.half e
  · rw [Ctrl.data_second_pixel_byte_of_inExtent (c := s.ctrl.withPlace k undef) hcmd hhalf hcur hin,
      ← joinBytes_eq_ofNat]
    have hother (a : Nat) (ha : a ≠ gramKey col row) :
        Gram.read (s.ctrl.gram.write (gramKey col row) (joinBytes hi b)) a = s.ctrl.gram.read a :=
      Gram.read_write_other _ _ ha
    exact ⟨rfl, fun h => (Ctrl.cell_of_not_corrupt h _).trans (Gram.read_write_same _ _ _),
      fun a ha => ⟨Ctrl.cell_congr rfl (hother a ha), hother a ha⟩⟩
  · rw [Ctrl.data_second_pixel_byte_of_not_inExtent (c := s.ctrl.withPlace k undef) hcmd hhalf hcur
      (ne_true_of_eq_false hin)]
    exact ⟨rfl, rfl⟩
  · rw [Ctrl.data_second_pixel_byte_of_no_cell (c := s.ctrl.withPlace k undef) hcmd hhalf hcur]
    exact ⟨rfl, rfl, rfl⟩

/-- Settles O47: the memory write leaves the cursor to the window, which the frame does not touch. -/
theorem cursorAdvances : Obligations.CursorAdvances := by
  intro s b hi col row xs xe ye hcmd hhalf hcur hxs hxe hye
  obtain ⟨k, undef, -, hexec⟩ := exec_linkData_eq_data b s
  rw [Ctrl.data_second_pixel_byte (c := s.ctrl.withPlace k undef) hcmd hhalf hcur] at hexec
  refine ⟨_, hexec, ?_⟩
  have hnext (v : Half) : BitVec.ofNat 16 (v.toNat + 1) = v + 1#16 := (addrY_eq_ofNat v).symm
  simp only [Ctrl.nextCursor, Ctrl.withPlace, hxs, hxe, hye, hnext]

theorem Ctrl.data_undef (c : Ctrl) (b : Byte) : (c.data cfg b).undef = c.undef := by
  obtain h | h | h | ⟨sym, hsym, h⟩ | h := c.cmd_cases
  · rw [Ctrl.data_of_caset h]
  · rw [Ctrl.data_of_raset h]
  · obtain ⟨_, _, _, _, e, -⟩ := Ctrl.data_of_ramwr_cases (cfg := cfg) h b
    rw [e]
  · rw [Ctrl.data_of_config hsym h]
  · rw [Ctrl.data_of_takesNoData h]

/-- Settles O45: by the kind of the current command; the comparison with E has moved the place before. -/
theorem parameterDataFrames : Obligations.ParameterDataFrames := by
  intro s b
  obtain ⟨k, undef, htrack, hexec⟩ := exec_linkData_eq_data b s
  have hconfig (sym : LinkCmd) (hsym : sym ∈ configCommands) (hcmd : s.ctrl.cmd = some sym) :
      ((s.ctrl.withPlace k undef).data s.cfg b).recorded = s.ctrl.recorded.append sym [b] ∧
        ((s.ctrl.withPlace k undef).data s.cfg b).unmodelled = s.ctrl.unmodelled := by
    rw [Ctrl.data_of_config (c := s.ctrl.withPlace k undef) hsym hcmd]
    exact ⟨rfl, rfl⟩
  rw [htrack]
  refine ⟨_, hexec, rfl, Ctrl.data_k _ _, Ctrl.data_undef _ _, hconfig .gamset (by decide), hconfig .pwctr (by decide),
    hconfig .stba (by decide), hconfig .colmod (by decide), hconfig .madctl (by decide), fun hcmd => ?_,
    fun hcaset hraset hramwr => ?_⟩
  · rw [Ctrl.data_of_takesNoData (c := s.ctrl.withPlace k undef) hcmd]
    exact ⟨rfl, rfl⟩
  · obtain h | h | h | ⟨sym, hsym, h⟩ | h := (s.ctrl.withPlace k undef).cmd_cases
    · exact absurd h hcaset
    · exact absurd h hraset
    · exact absurd h hramwr
    · rw [Ctrl.data_of_config hsym h]
      exact ⟨fun _ => rfl, rfl, rfl, rfl, rfl, rfl, rfl, rfl, rfl, rfl⟩
    · rw [Ctrl.data_of_takesNoData h]
      exact ⟨fun _ => rfl, rfl, rfl, rfl, rfl, rfl, rfl, rfl, rfl, rfl⟩

end Sys2Proof.Machine
end

section
/-! PROOFS. The place in E, and the sticky marks (46_controller_double.md rules R260, R270 to R272). -/

namespace Sys2Proof.Machine

variable {s t : State} {cfg : Cfg} {c d : Ctrl} {e want : LinkEvent}

/-! The comparison with E[k]. -/

theorem Ctrl.track_of_match (hwant : (expected cfg)[c.k]? = some want) (h : eventMatches e want = true) :
    c.track cfg e = { c with k := c.k + 1 } := by
  simp [Ctrl.track, hwant, h]

theorem Ctrl.track_of_mismatch (hwant : (expected cfg)[c.k]? = some want) (h : eventMatches e want = false)
    (hdwell : isDwell e = true → isDwell want = true) : c.track cfg e = { c with undef := true } := by
  cases he : isDwell e <;> simp_all [Ctrl.track]

theorem Ctrl.track_of_unexpected_dwell (hwant : (expected cfg)[c.k]? = some want) (h : eventMatches e want = false)
    (he : isDwell e = true) (hdwell : isDwell want = false) : c.track cfg e = c := by
  simp [Ctrl.track, hwant, h, he, hdwell]

theorem eventMatches_self (e : LinkEvent) : eventMatches e e = true := by
  cases e <;> simp [eventMatches]

/-- Anything but a dwell matches only what it equals. -/
theorem eventMatches_of_ne (he : isDwell e = false) (h : want ≠ e) : eventMatches e want = false := by
  cases e with
  | dwell n => cases he
  | _ => exact decide_eq_false h.symm

/-- A controller with an event still to come is not ready. -/
theorem Ctrl.not_ready_of_expected (hwant : (expected cfg)[c.k]? = some want) : c.ready cfg = false := by
  have hlt := (List.getElem?_eq_some_iff.1 hwant).1
  simp only [Ctrl.ready, decide_eq_false_iff_not]
  omega

theorem Ctrl.command_undef (c : Ctrl) (sym : LinkCmd) : (c.command sym).undef = c.undef := by
  obtain ⟨_, _, e, -⟩ := c.command_cases sym
  rw [e]

/-- What a frame does after the comparison moves neither the place in E nor UNDEFINED. -/
theorem Ctrl.consume_frame_place (cfg : Cfg) (c : Ctrl) (dc : Bit) (b : Byte) :
    (c.consume cfg (.frame dc b)).k = (c.track cfg (.frame dc b)).k ∧
      (c.consume cfg (.frame dc b)).undef = (c.track cfg (.frame dc b)).undef := by
  simp only [Ctrl.consume]
  split_ifs
  · exact ⟨Ctrl.data_k _ _, Ctrl.data_undef _ _⟩
  · split
    · exact ⟨Ctrl.command_k _ _, Ctrl.command_undef _ _⟩
    · exact ⟨rfl, rfl⟩

theorem Ctrl.consume_rstRelease_of_expected (hwant : (expected cfg)[c.k]? = some want) :
    c.consume cfg .rstRelease = c.track cfg .rstRelease := by
  simp [Ctrl.consume, Ctrl.not_ready_of_expected hwant]

/-- Settles O48: each event is compared with E[k] before it is processed, which moves no place; a ready controller has
nothing to compare with. -/
theorem expectedSequenceIsTracked : Obligations.ExpectedSequenceIsTracked := by
  intro cfg c
  refine ⟨fun dc b w hw => ?_, fun n m hw => ⟨fun hle => ?_, fun hlt => ?_⟩, fun n w hw hne => ?_, fun w hw => ?_,
    fun hready => ⟨fun n => Ctrl.track_of_ready hready _, if_pos hready, fun dc b => ?_⟩⟩
  · obtain ⟨hk, hundef⟩ := c.consume_frame_place cfg dc b
    rw [hk, hundef]
    refine ⟨fun h => ?_, fun h => ?_⟩
    · rw [Ctrl.track_of_match hw (h ▸ eventMatches_self _)]
      exact ⟨rfl, rfl⟩
    · rw [Ctrl.track_of_mismatch hw (eventMatches_of_ne rfl h) Bool.noConfusion]
      exact ⟨rfl, rfl⟩
  · exact Ctrl.track_of_match hw (decide_eq_true hle)
  · exact Ctrl.track_of_mismatch hw (decide_eq_false (not_le.2 hlt)) fun _ => rfl
  · cases w with
    | dwell m => exact absurd rfl (hne m)
    | _ => exact Ctrl.track_of_unexpected_dwell hw rfl rfl rfl
  · rw [Ctrl.consume_rstRelease_of_expected hw]
    refine ⟨fun h => ?_, fun h => ?_⟩
    · exact Ctrl.track_of_match hw (h ▸ eventMatches_self _)
    · exact Ctrl.track_of_mismatch hw (eventMatches_of_ne rfl h) Bool.noConfusion
  · obtain ⟨hk, hundef⟩ := c.consume_frame_place cfg dc b
    rw [hk, hundef, Ctrl.track_of_ready hready]
    exact ⟨rfl, rfl⟩

/-! The marks. -/

/-- Every mark of `c` is one of `d`. -/
def Ctrl.KeepsMarks (c d : Ctrl) : Prop :=
  (c.corrupt = true → d.corrupt = true) ∧ (c.undef = true → d.undef = true) ∧
    (c.unmodelled = true → d.unmodelled = true)

theorem Ctrl.KeepsMarks.refl (c : Ctrl) : c.KeepsMarks c := ⟨id, id, id⟩

theorem Ctrl.KeepsMarks.trans {f : Ctrl} (h : c.KeepsMarks d) (h' : d.KeepsMarks f) : c.KeepsMarks f := by
  obtain ⟨hcorrupt, hundef, hunmodelled⟩ := h
  obtain ⟨hcorrupt', hundef', hunmodelled'⟩ := h'
  exact ⟨hcorrupt' ∘ hcorrupt, hundef' ∘ hundef, hunmodelled' ∘ hunmodelled⟩

theorem Ctrl.track_keepsMarks (c : Ctrl) (e : LinkEvent) : c.KeepsMarks (c.track cfg e) := by
  unfold Ctrl.track
  split
  · exact .refl c
  · split_ifs
    · exact ⟨id, id, id⟩
    · exact .refl c
    · exact ⟨id, fun _ => rfl, id⟩

theorem Ctrl.command_keepsMarks (c : Ctrl) (sym : LinkCmd) : c.KeepsMarks (c.command sym) := by
  obtain ⟨_, _, e, -, hkeep⟩ := c.command_cases sym
  rw [e]
  exact ⟨hkeep, id, id⟩

theorem Ctrl.data_keepsMarks (c : Ctrl) (b : Byte) : c.KeepsMarks (c.data cfg b) := by
  obtain h | h | h | ⟨sym, hsym, h⟩ | h := c.cmd_cases
  · rw [Ctrl.data_of_caset h]
    exact ⟨id, id, fun hmark => by simp [hmark]⟩
  · rw [Ctrl.data_of_raset h]
    exact ⟨id, id, fun hmark => by simp [hmark]⟩
  · obtain ⟨_, _, _, _, e, hkeep⟩ := Ctrl.data_of_ramwr_cases (cfg := cfg) h b
    rw [e]
    exact ⟨hkeep, id, id⟩
  · rw [Ctrl.data_of_config hsym h]
    exact ⟨id, id, id⟩
  · rw [Ctrl.data_of_takesNoData h]
    exact ⟨id, id, fun _ => rfl⟩

/-- Nothing that CTRL consumes clears a mark (rules R260, R271). -/
theorem Ctrl.consume_keepsMarks (c : Ctrl) (e : LinkEvent) : c.KeepsMarks (c.consume cfg e) := by
  cases e with
  | frame dc b =>
    refine (c.track_keepsMarks (cfg := cfg) (.frame dc b)).trans ?_
    simp only [Ctrl.consume]
    split_ifs
    · exact Ctrl.data_keepsMarks _ b
    · split
      · exact Ctrl.command_keepsMarks _ _
      · exact ⟨id, id, fun _ => rfl⟩
  | rstAssert => exact ⟨id, id, id⟩
  | rstRelease =>
    simp only [Ctrl.consume]
    split_ifs
    · exact ⟨id, id, fun _ => rfl⟩
    · exact c.track_keepsMarks _
  | dwell n => exact c.track_keepsMarks _

/-- Only CTRL writes the controller: with any controller in its place, the turn of another agent is the same. -/
theorem State.agentStep_ctrl {a : Agent} (ha : a ≠ .ctrl) (h : s.agentStep a = .next t) : t.ctrl = s.ctrl := by
  have e : s.agentStep a = mapNext (State.withCtrl s.ctrl) (s.agentStep a) := State.agentStep_withCtrl s.ctrl s ha
  rw [h] at e
  have ht : t = t.withCtrl s.ctrl := Host.Outcome.next.inj e
  exact (congrArg State.ctrl ht).trans rfl

theorem State.ctrlStep_keepsMarks (h : s.ctrlStep = .next t) : s.ctrl.KeepsMarks t.ctrl := by
  cases htodo : s.linkTodo with
  | nil =>
    rw [State.ctrlStep_of_linkTodo_nil htodo] at h
    cases h
    exact .refl _
  | cons e es =>
    rw [State.ctrlStep_cons htodo] at h
    cases h
    exact Ctrl.consume_keepsMarks _ e

/-- Settles O50: a turn of CTRL consumes at most one event, and no other agent writes the controller. -/
theorem marksAreSticky : Obligations.MarksAreSticky := by
  intro s t hstep
  obtain ⟨l, n, e⟩ := step_eq_agentStep s
  rw [e] at hstep
  by_cases ha : s.nextAgent = .ctrl
  · rw [ha] at hstep
    exact State.ctrlStep_keepsMarks (s := { s with sched := l, draws := n }) hstep
  · rw [State.agentStep_ctrl ha hstep]
    exact Ctrl.KeepsMarks.refl s.ctrl

end Sys2Proof.Machine
end

section
/-! PROOFS. What the traces of SETPIXEL, CLEAR and INIT make of the controller (46_controller_double.md rule R273). -/

namespace Sys2Proof.Machine

variable {cfg : Cfg} {c c₀ : Ctrl} {e : LinkEvent} {l : List Micro} {r : Recorded}

theorem Ctrl.SameMarks.trans {d f : Ctrl} (h : f.SameMarks d) (h' : d.SameMarks c) : f.SameMarks c := by
  obtain ⟨hcorrupt, hundef, hunmodelled⟩ := h
  obtain ⟨hcorrupt', hundef', hunmodelled'⟩ := h'
  exact ⟨hcorrupt.trans hcorrupt', hundef.trans hundef', hunmodelled.trans hunmodelled'⟩

theorem Ctrl.SameMarks.noMark {d : Ctrl} (h : d.SameMarks c) (hmark : c.NoMark) : d.NoMark := by
  obtain ⟨hcorrupt, hundef, hunmodelled⟩ := h
  rwa [Ctrl.NoMark, hcorrupt, hundef, hunmodelled]

/-- Settles O52: one memory write at the pixel's cell, which is all that SETPIXEL moves of what is claimed. -/
theorem setPixelTraceSetsOnePixel : Obligations.SetPixelTraceSetsOnePixel := by
  intro cfg c x y v hdistinct hfits h hview
  have hset := Ctrl.consumeAll_setPixel_inView hdistinct hfits h hview v
  generalize c.consumeAll cfg ((ucode cfg .setPixel x y v 0#1).map Micro.event) = d at hset ⊢
  have hgram : d.gram = c.gram.write (gramKey (addrX x) (addrY y)) v := by rw [hset]
  have hmarks : d.SameMarks c := by
    rw [hset]
    exact ⟨rfl, rfl, rfl⟩
  have hready : d.ready cfg = true := by
    rw [hset]
    exact h
  refine ⟨fun hmark => ?_, fun a ha => ?_, hmarks, hready, by rw [hset]; rfl⟩
  · rw [Ctrl.visible_of_noMark (hmarks.noMark hmark) hview, hgram]
    exact Gram.visible_write_same _ _ _ _
  · have hread : d.gram.read a = c.gram.read a := by
      rw [hgram]
      exact Gram.read_write_other _ _ ha
    exact ⟨Ctrl.cell_congr hmarks.1 hread, hread⟩

/-- A ready controller after a fill: every visible pixel has the colour, and nothing has moved but the window, the
memory write and frame memory. -/
theorem Ctrl.fill_of_ready (hdistinct : cfg.CommandsDistinct) (hfits : cfg.ExtentFits) (h : c.ready cfg = true)
    (v : Half) : ∃ d, c.consumeAll cfg ((fillList cfg v).map Micro.event) = d ∧
      (∀ x y, cfg.InView x y → d.gram.visible x y = some v) ∧ d.SameMarks c ∧ d.ready cfg = true ∧ d.on = c.on ∧
      d.recorded = c.recorded := by
  obtain ⟨hsame, hcolor⟩ := Ctrl.consumeAll_fillList_of_ready hdistinct hfits h v
  refine ⟨_, rfl, hcolor, ?_⟩
  rw [hsame]
  exact ⟨⟨rfl, rfl, rfl⟩, h, rfl, rfl⟩

/-- Settles O54: CLEAR is a fill. -/
theorem clearTraceFillsScreen : Obligations.ClearTraceFillsScreen := by
  intro cfg c v hdistinct hfits h
  obtain ⟨d, hd, hcolor, hmarks, hready, hon, -⟩ := Ctrl.fill_of_ready hdistinct hfits h v
  have htrace : c.consumeAll cfg ((ucode cfg .clear 0#16 0#16 v 0#1).map Micro.event) = d := hd
  rw [htrace]
  exact ⟨fun hmark x y hview =>
    (Ctrl.visible_of_noMark (hmarks.noMark hmark) hview).trans (hcolor x y hview), hmarks, hready, hon⟩

/-! INIT: the controller in step with E (rule R270). -/

/-- A controller that has consumed INIT's list up to the micro-events `l` that are left of lines 1 to 13: it has the
place in E behind what it has consumed, the recorded parameters `r`, and the marks of `c₀`. -/
structure Ctrl.InStep (cfg : Cfg) (c c₀ : Ctrl) (l : List Micro) (r : Recorded) : Prop where
  place : ∃ done, expected cfg = done ++ l.map Micro.event ∧ c.k = done.length
  recorded : c.recorded = r
  marks : c.SameMarks c₀

theorem Ctrl.InStep.ready (h : c.InStep cfg c₀ [] r) : c.ready cfg = true := by
  obtain ⟨done, hdone, hk⟩ := h.place
  rw [Ctrl.ready_iff, hk, hdone]
  simp

/-- The controller expects the next event of INIT. -/
theorem Ctrl.InStep.expected_next {m : Micro} (h : c.InStep cfg c₀ (m :: l) r) :
    (expected cfg)[c.k]? = some m.event := by
  obtain ⟨done, hdone, hk⟩ := h.place
  simp [hdone, hk]

/-- The next event of INIT is the expected one. -/
theorem Ctrl.InStep.track {m : Micro} (h : c.InStep cfg c₀ (m :: l) r) : (c.track cfg m.event).InStep cfg c₀ l r := by
  rw [Ctrl.track_of_match h.expected_next (eventMatches_self _)]
  obtain ⟨⟨done, hdone, hk⟩, hrecorded, hmarks⟩ := h
  exact ⟨⟨done ++ [m.event], by simp [hdone], by simp [hk]⟩, hrecorded, hmarks⟩

theorem Ctrl.InStep.dwell {n : Nat} (h : c.InStep cfg c₀ (.dwell n :: l) r) :
    (c.consume cfg (.dwell n)).InStep cfg c₀ l r := h.track

theorem Ctrl.InStep.rstRelease (h : c.InStep cfg c₀ (.rstr :: l) r) :
    (c.consume cfg .rstRelease).InStep cfg c₀ l r := by
  rw [Ctrl.consume_rstRelease_of_expected h.expected_next]
  exact h.track

/-- A command frame but RAMWR. -/
theorem Ctrl.InStep.command (hdistinct : cfg.CommandsDistinct) {sym : LinkCmd} (hsym : sym ≠ .ramwr)
    (h : c.InStep cfg c₀ (.sendf 0#1 (cfg.cmdByte sym) :: l) r) :
    (c.consume cfg (.frame 0#1 (cfg.cmdByte sym))).InStep cfg c₀ l r ∧
      (c.consume cfg (.frame 0#1 (cfg.cmdByte sym))).cmd = some sym := by
  have e : c.consume cfg (.frame 0#1 (cfg.cmdByte sym)) = (c.track cfg (.frame 0#1 (cfg.cmdByte sym))).command sym := by
    simp [Ctrl.consume, Cfg.symbolOf_cmdByte hdistinct]
  obtain ⟨hplace, hrecorded, hmarks⟩ := h.track
  rw [e, Ctrl.command_eq hsym]
  exact ⟨⟨hplace, hrecorded, hmarks⟩, rfl⟩

/-- A parameter of a configuration command is recorded. -/
theorem Ctrl.InStep.parameter {sym : LinkCmd} (hsym : sym ∈ configCommands) {b : Byte}
    (h : c.InStep cfg c₀ (.sendf 1#1 b :: l) r) (hcmd : c.cmd = some sym) :
    (c.consume cfg (.frame 1#1 b)).InStep cfg c₀ l (r.append sym [b]) ∧
      (c.consume cfg (.frame 1#1 b)).cmd = some sym := by
  have hcmd' : (c.track cfg (.frame 1#1 b)).cmd = some sym := by rwa [Ctrl.track_eq]
  have e : c.consume cfg (.frame 1#1 b) = _ := Ctrl.data_of_config hsym hcmd' b
  obtain ⟨hplace, hrecorded, hmarks⟩ := h.track
  rw [e]
  exact ⟨⟨hplace, congrArg (·.append sym [b]) hrecorded, hmarks⟩, hcmd'⟩

theorem Recorded.append_append (r : Recorded) (sym : LinkCmd) (bs bs' : List Byte) :
    (r.append sym bs).append sym bs' = r.append sym (bs ++ bs') := by
  cases sym <;> simp [Recorded.append]

theorem Recorded.append_nil (r : Recorded) (sym : LinkCmd) : r.append sym [] = r := by
  cases sym <;> simp [Recorded.append]

/-- The parameters of a configuration command are recorded in order. -/
theorem Ctrl.InStep.parameters {sym : LinkCmd} (hsym : sym ∈ configCommands) {bs : List Byte}
    (h : c.InStep cfg c₀ (bs.map (Micro.sendf 1#1) ++ l) r) (hcmd : c.cmd = some sym) :
    (c.consumeAll cfg ((bs.map (Micro.sendf 1#1)).map Micro.event)).InStep cfg c₀ l (r.append sym bs) := by
  induction bs generalizing c r with
  | nil => rwa [Recorded.append_nil]
  | cons b bs ih =>
    obtain ⟨h', hcmd'⟩ := h.parameter hsym hcmd
    have hrest := ih h' hcmd'
    rwa [Recorded.append_append] at hrest

/-- A configuration command with its parameters (41_display_driver.md rule R157). -/
theorem Ctrl.InStep.config (hdistinct : cfg.CommandsDistinct) {sym : LinkCmd} (hsym : sym ∈ configCommands)
    {bs : List Byte} (h : c.InStep cfg c₀ (configList (cfg.cmdByte sym) bs ++ l) r) :
    (c.consumeAll cfg ((configList (cfg.cmdByte sym) bs).map Micro.event)).InStep cfg c₀ l (r.append sym bs) := by
  have hne : sym ≠ .ramwr := by
    rintro rfl
    exact absurd hsym (by decide)
  obtain ⟨h', hcmd⟩ := Ctrl.InStep.command hdistinct hne h
  exact h'.parameters hsym hcmd

/-- RST_ASSERT, the first event of INIT, puts any controller in step. -/
theorem Ctrl.resetPulse_inStep (c : Ctrl) {l : List Micro} (hl : initSequence cfg = .rsta :: l) :
    c.resetPulse.InStep cfg c l { gamset := [], pwctr := [], stba := [], colmod := [], madctl := [] } :=
  ⟨⟨[.rstAssert], by rw [expected, hl]; rfl, rfl⟩, rfl, ⟨rfl, rfl, rfl⟩⟩

/-- Lines 1 to 13 of INIT, block by block (41_display_driver.md rule R157). -/
theorem initSequence_eq (cfg : Cfg) : initSequence cfg =
    .rsta :: .dwell Config.rstHoldMs :: .rstr :: .dwell Config.rstReleaseMs ::
      .sendf 0#1 (cfg.cmdByte .slpout) :: .dwell Config.slpoutMs ::
      (configList (cfg.cmdByte .gamset) cfg.pGamset ++ (configList (cfg.cmdByte .pwctr) cfg.pPwctr ++
        (configList (cfg.cmdByte .stba) cfg.pStba ++ (configList (cfg.cmdByte .colmod) cfg.pColmod ++
          .dwell Config.colmodMs :: (configList (cfg.cmdByte .madctl) cfg.pMadctl ++
            [.sendf 0#1 (cfg.cmdByte .noron)]))))) := by
  simp [initSequence, Cfg.cmdByte]

/-- Lines 1 to 13 of INIT make any controller ready, with the parameters recorded and no mark moved. -/
theorem Ctrl.consumeAll_initSequence (hdistinct : cfg.CommandsDistinct) (c : Ctrl) :
    (c.consumeAll cfg ((initSequence cfg).map Micro.event)).InStep cfg c []
      { gamset := cfg.pGamset, pwctr := cfg.pPwctr, stba := cfg.pStba, colmod := cfg.pColmod,
        madctl := cfg.pMadctl } := by
  have hreset := c.resetPulse_inStep (initSequence_eq cfg)
  have hslpout := (hreset.dwell.rstRelease.dwell.command hdistinct (by decide)).1.dwell
  have hgamset := hslpout.config hdistinct (by decide)
  have hpwctr := hgamset.config hdistinct (by decide)
  have hstba := hpwctr.config hdistinct (by decide)
  have hcolmod := (hstba.config hdistinct (by decide)).dwell
  have hmadctl := hcolmod.config hdistinct (by decide)
  have hnoron := (hmadctl.command hdistinct (by decide)).1
  simp only [initSequence_eq, List.map_cons, List.map_append, List.map_nil, Ctrl.consumeAll_cons,
    Ctrl.consumeAll_append, Ctrl.consumeAll_nil]
  exact hnoron

/-- Settles O55: lines 1 to 13 make the controller ready, the fill is that of CLEAR, and DISPON switches the display
on. -/
theorem initTraceMakesControllerReady : Obligations.InitTraceMakesControllerReady := by
  intro cfg c hdistinct hfits
  have hinit := c.consumeAll_initSequence hdistinct
  obtain ⟨d, hd, hcolor, hmarks, hready, -, hrecorded⟩ :=
    Ctrl.fill_of_ready hdistinct hfits hinit.ready cfg.initFillColor
  have htrace : c.consumeAll cfg ((ucode cfg .init 0#16 0#16 0#16 0#1).map Micro.event) = d.command .dispon := by
    simp only [ucode, List.map_append, Ctrl.consumeAll_append, hd]
    exact Ctrl.consume_command_of_ready hdistinct hready .dispon
  rw [htrace]
  have hmarks' : (d.command .dispon).SameMarks c := hmarks.trans hinit.marks
  refine ⟨(Ctrl.command_ready d .dispon).trans hready, rfl, rfl, hmarks', fun hmark x y hview => ?_,
    hrecorded.trans hinit.recorded⟩
  exact (Ctrl.visible_of_noMark (hmarks'.noMark hmark) hview).trans (hcolor x y hview)

end Sys2Proof.Machine
end

section
/-! PROOFS. Who may write what (60_exceptions.md rules R301, R304): the table of the agents' write accesses as a
function, and for each shared element the agents that change it. -/

namespace Sys2Proof.Machine

variable {s t : State} {a : Agent} {i : Button}

/-- `s` with what agent `a` may write taken from `t`: the write accesses of rule R301's table read by agent, and those
to the elements that one agent has for itself. -/
def State.writtenBy (s : State) (a : Agent) (t : State) : State :=
  match a with
  | .host =>
    { s with
      opx := t.opx, opy := t.opy, opv := t.opv, opm := t.opm, seqOp := t.seqOp, seqPc := t.seqPc, res := t.res,
      count := t.count, flag := t.flag, host := t.host, draws := t.draws }
  | .seq =>
    { s with
      txbuf := t.txbuf, dc := t.dc, txbusy := t.txbusy, rst := t.rst, seqOp := t.seqOp, seqPc := t.seqPc,
      res := t.res, linkTodo := t.linkTodo }
  | .tx => { s with txbusy := t.txbusy, linkTodo := t.linkTodo }
  | .clk => { s with cnt := t.cnt }
  | .tick => { s with count := t.count }
  | .db i => (s.writeDb i (t.db.get i)).writeFlag i (t.flag.get i)
  | .pinFall i => (s.writePin i (t.pin.get i)).writeDb i (t.db.get i)
  | .pinRise i => s.writePin i (t.pin.get i)
  | .ctrl => { s with linkDone := t.linkDone, linkTodo := t.linkTodo, ctrl := t.ctrl }

theorem State.hostStep_writes (h : s.hostStep = .next t) : t = s.writtenBy .host t := by
  obtain ⟨g, n, -, rfl⟩ | ⟨-, g, n, d, i, hd, he⟩ := State.hostStep_cases h
  · rfl
  · obtain ⟨-, rfl⟩ | ⟨-, heffect⟩ := exec_decoded_cases hd he
    · rfl
    · rw [heffect.eq_update]
      rfl

theorem State.seqStep_writes (s : State) : s.seqStep = s.writtenBy .seq s.seqStep := by
  obtain ⟨m, -, -, e⟩ | ⟨-, e⟩ := s.seqStep_cases
  · obtain ⟨-, hadv⟩ | ⟨-, hadv⟩ := (s.perform m).advanceSeq_cases s.ucode.length <;>
      rw [e, hadv] <;> cases m <;> rfl
  · rw [e]
    rfl

/-- A turn of an agent writes only what the agent has write access to. -/
theorem State.agentStep_writes (h : s.agentStep a = .next t) : t = s.writtenBy a t := by
  cases a with
  | host => exact State.hostStep_writes h
  | seq => cases h; exact s.seqStep_writes
  | tx => cases h; obtain ⟨-, e⟩ | ⟨-, e⟩ := s.txStep_cases <;> rw [e] <;> rfl
  | clk => cases h; rfl
  | tick => cases h; rfl
  | db i =>
    cases h
    obtain ⟨-, -, e⟩ | ⟨-, -, e⟩ | ⟨-, e⟩ := s.dbStep_cases i <;> rw [e] <;> cases i <;> rfl
  | pinFall i =>
    cases h
    obtain ⟨-, -, e⟩ | ⟨-, -, e⟩ | ⟨-, e⟩ := s.pinFallStep_cases i <;> rw [e] <;> cases i <;> rfl
  | pinRise i =>
    cases h
    obtain ⟨-, e⟩ | ⟨-, e⟩ := s.pinRiseStep_cases i <;> rw [e] <;> cases i <;> rfl
  | ctrl =>
    obtain ⟨done, todo, c, e⟩ := s.ctrlStep_next
    cases e.symm.trans h
    rfl

/-! The counters (42_timer.md rules R180, R181, R186, R188). -/

theorem State.agentStep_cnt_writer (h : s.agentStep a = .next t) (hne : t.cnt ≠ s.cnt) : a = .clk := by
  have hwrites := State.agentStep_writes h
  cases a with
  | clk => rfl
  | _ => exact absurd (congrArg State.cnt hwrites) hne

theorem IssueEffect.count_cases {j : Instr} (h : IssueEffect j s t) : t.count = s.count ∨ t.count = 0#32 := by
  cases h with
  | issue => exact .inl rfl
  | setRes => exact .inl rfl
  | clearCount => exact .inr rfl
  | clearFlag => exact .inl rfl

/-- HOST leaves COUNT alone or clears it. -/
theorem State.hostStep_count_cases (h : s.hostStep = .next t) : t.count = s.count ∨ t.count = 0#32 := by
  obtain ⟨g, n, -, rfl⟩ | ⟨-, g, n, d, j, hd, he⟩ := State.hostStep_cases h
  · exact .inl rfl
  · obtain ⟨-, rfl⟩ | ⟨-, heffect⟩ := exec_decoded_cases hd he
    · exact .inl rfl
    · exact heffect.count_cases

theorem State.agentStep_count_writer (h : s.agentStep a = .next t) (hne : t.count ≠ s.count) :
    a = .tick ∨ a = .host ∧ t.count = 0#32 := by
  have hwrites := State.agentStep_writes h
  cases a with
  | tick => exact .inl rfl
  | host => exact .inr ⟨rfl, (State.hostStep_count_cases h).resolve_left hne⟩
  | _ => exact absurd (congrArg State.count hwrites) hne

/-! The transmit unit and the reset line (40_serial_channel.md rules R131, R132, R134, 41_display_driver.md rule
R151). -/

/-- SEQ does something only at a free transmit unit. -/
theorem State.txFree_of_seqStep_ne (h : s.seqStep ≠ s) : s.txbusy = 0#1 :=
  (Bit.eq_zero_or_one s.txbusy).resolve_right fun hbusy => h (State.seqStep_of_txBusy hbusy)

theorem State.agentStep_dc_txbuf_writer (h : s.agentStep a = .next t) (hne : t.dc ≠ s.dc ∨ t.txbuf ≠ s.txbuf) :
    a = .seq ∧ s.txbusy = 0#1 := by
  have hmoved : t ≠ s := by
    rintro rfl
    exact hne.elim (absurd rfl) (absurd rfl)
  rw [State.agentStep_writes h] at hne
  cases a with
  | seq => cases h; exact ⟨rfl, State.txFree_of_seqStep_ne hmoved⟩
  | _ => exact hne.elim (absurd rfl) (absurd rfl)

theorem State.agentStep_txbusy_writer (h : s.agentStep a = .next t) (hne : t.txbusy ≠ s.txbusy) :
    a = .seq ∧ t.txbusy = 1#1 ∨ a = .tx ∧ t.txbusy = 0#1 := by
  have hwrites := State.agentStep_writes h
  cases a with
  | seq =>
    cases h
    have hfree : s.txbusy = 0#1 := State.txFree_of_seqStep_ne fun e => hne (congrArg State.txbusy e)
    exact .inl ⟨rfl, (Bit.eq_zero_or_one _).resolve_left (hfree ▸ hne)⟩
  | tx => cases h; exact .inr ⟨rfl, s.txStep_txbusy⟩
  | _ => exact absurd (congrArg State.txbusy hwrites) hne

@[simp] theorem State.advanceSeq_rst (s : State) (n : Nat) : (s.advanceSeq n).rst = s.rst := by
  obtain ⟨-, e⟩ | ⟨-, e⟩ := s.advanceSeq_cases n <;> rw [e]

/-- No list but INIT's moves the reset line (rule R157). -/
theorem State.seqStep_rst_of_not_init (h : s.seqOp ≠ .init) : s.seqStep.rst = s.rst := by
  obtain ⟨m, -, hm, e⟩ | ⟨-, e⟩ := s.seqStep_cases
  · rw [e, State.advanceSeq_rst, State.perform_rst]
    exact keepsRst_ucode s.cfg h s.opx s.opy s.opv s.opm m (List.mem_of_getElem? hm) s.rst
  · rw [e]

theorem State.agentStep_rst_writer (h : s.agentStep a = .next t) (hne : t.rst ≠ s.rst) :
    a = .seq ∧ s.seqOp = .init := by
  have hwrites := State.agentStep_writes h
  cases a with
  | seq =>
    cases h
    exact ⟨rfl, not_not.1 fun hop => hne (State.seqStep_rst_of_not_init hop)⟩
  | _ => exact absurd (congrArg State.rst hwrites) hne

/-! The buttons (43_input_sampler.md rules R201, R203, R209). -/

/-- A write to a button's cell changes the cell of no other button. -/
theorem button_eq_of_get_set_ne {α : Type} {p : PerButton α} {v : α} {k : Button}
    (h : (p.set v k).get i ≠ p.get i) : k = i :=
  not_not.1 fun hk => h (PerButton.get_set_other p v (Ne.symm hk))

theorem State.agentStep_db_writer (h : s.agentStep a = .next t) (hne : t.db.get i ≠ s.db.get i) :
    a = .db i ∨ a = .pinFall i := by
  rw [State.agentStep_writes h] at hne
  cases a with
  | db k => exact .inl (congrArg Agent.db (button_eq_of_get_set_ne hne))
  | pinFall k => exact .inr (congrArg Agent.pinFall (button_eq_of_get_set_ne hne))
  | _ => exact absurd rfl hne

theorem State.agentStep_pin_writer (h : s.agentStep a = .next t) (hne : t.pin.get i ≠ s.pin.get i) :
    a = .pinFall i ∨ a = .pinRise i := by
  rw [State.agentStep_writes h] at hne
  cases a with
  | pinFall k => exact .inl (congrArg Agent.pinFall (button_eq_of_get_set_ne hne))
  | pinRise k => exact .inr (congrArg Agent.pinRise (button_eq_of_get_set_ne hne))
  | _ => exact absurd rfl hne

/-- HOST clears a flag, and the button's own debouncer sets it (rules R203, R205). -/
theorem State.agentStep_flag_writer (h : s.agentStep a = .next t) (hne : t.flag.get i ≠ s.flag.get i) :
    a = .db i ∧ t.flag.get i = 1#1 ∨ a = .host ∧ t.flag.get i = 0#1 := by
  obtain hsame | hclear | ⟨ha, -, -, hset⟩ := State.agentStep_flag_cases h i
  · exact absurd hsame hne
  · exact .inr hclear
  · exact .inl ⟨ha, hset⟩

/-! The controller, and the configuration, which nobody writes (00_scope.md rule R5). -/

theorem State.agentStep_ctrl_writer (h : s.agentStep a = .next t) (hne : t.ctrl ≠ s.ctrl) : a = .ctrl :=
  not_not.1 fun ha => hne (State.agentStep_ctrl ha h)

theorem State.agentStep_cfg (h : s.agentStep a = .next t) : t.cfg = s.cfg := by
  rw [State.agentStep_writes h]
  cases a <;> rfl

/-- Settles O29: a step is a turn of the next agent after the scheduling choice, and each shared element has its
writers. -/
theorem writersOfEachElement : Obligations.WritersOfEachElement := by
  intro s t h
  obtain ⟨l, n, e⟩ := step_eq_agentStep s
  have hturn := e.symm.trans h
  have hflag (i : Button) := State.agentStep_flag_writer (i := i) hturn
  have hcount := State.agentStep_count_writer hturn
  have hcnt := State.agentStep_cnt_writer hturn
  have hframe := State.agentStep_dc_txbuf_writer hturn
  have htxbusy := State.agentStep_txbusy_writer hturn
  have hrst := State.agentStep_rst_writer hturn
  have hdb (i : Button) := State.agentStep_db_writer (i := i) hturn
  have hpin (i : Button) := State.agentStep_pin_writer (i := i) hturn
  have hctrl := State.agentStep_ctrl_writer hturn
  have hcfg := State.agentStep_cfg hturn
  exact ⟨hflag, hcount, hcnt, hframe, htxbusy, hrst, hdb, hpin, hctrl, hcfg⟩

end Sys2Proof.Machine
end
